-- ==== Sys2Proof/Word.lean ====
section
/-! DEFINITION. The word types of the machine (spec R7, R21, R50, R80): bytes of data memory, the 64-bit
values of registers and addresses, the 64-bit slots of program text, and register numbers. -/

namespace Sys2Proof

/-- One byte of data memory (R50). -/
abbrev Byte := BitVec 8

/-- The value of a register, and an address of data memory (R21, R34): 64 bits. -/
abbrev Word := BitVec 64

/-- One 64-bit slot of program text (R80). -/
abbrev Slot := BitVec 64

/-- The number of a register, R0 to R10 (R21). Numbers 11 to 15 of the 4-bit fields select nothing. -/
abbrev RegNum := Fin 11

end Sys2Proof
end

