-- ==== Sys2Proof/Config.lean ====
section
/-! DEFINITION. The implementation parameters of the spec (R6), as plain data that a machine carries and no
instruction changes (R20), and the free values (R379): opaque constants, whose value nothing can know. -/

namespace Sys2Proof

/-- The two byte orders: the values of `HOST_ENDIAN` (R51), and the two targets of a byte swap (R180). -/
inductive ByteOrder where
  | little
  | big
  deriving DecidableEq, Repr

/-- The values of `DIVMOD_SIGNED` (R122, R152). -/
inductive DivMode where
  | unsigned
  | signed
  deriving DecidableEq, Repr

/-- The values of `SHIFT_OVERWIDTH` (R123, R153). -/
inductive ShiftMode where
  | mask
  | refuse
  deriving DecidableEq, Repr

/-- The values of `LOCAL_CALL_DISP` (R251): which field of a local call holds its displacement. -/
inductive DispField where
  | offset
  | imm
  deriving DecidableEq, Repr

/-- The values of `UNWRITTEN_READ` (R35): what reading a register that holds no value does. -/
inductive UnwrittenMode where
  | fault
  | any
  deriving DecidableEq, Repr

/-- The two numbering spaces of functions of the runtime (R247): helper functions and runtime functions. -/
inductive CallSpace where
  | helper
  | runtime
  deriving DecidableEq, Repr

/-- One region of the memory map `REGIONS` (R57). -/
structure Region where
  base : Nat
  size : Nat
  readable : Bool
  writable : Bool
  shared : Bool
  deriving DecidableEq, Repr

/-- One outcome of a call of a function of the runtime (R247): the value returned, the bytes of data memory it replaces,
in order, and whether it fails (R348; read only of a function that is described as able to fault). -/
structure CallOutcome where
  ret : Word
  writes : List (Word × Byte)
  fails : Bool
  deriving DecidableEq, Repr, Inhabited

/-- The operations of a function description, on 64 bits, unsigned: the quotient and the remainder of a zero divisor are
those of R152, a shift by 64 or more gives 0, and a comparison gives 1 or 0. -/
inductive FunOp where
  | add
  | sub
  | mul
  | div
  | mod
  | and
  | or
  | xor
  | shl
  | shr
  | eq
  | ult
  deriving DecidableEq, Repr

/-- What a function description may compute from the arguments and the data memory that a call finds (R247): the terms
of a relation between `(a1, .., ak, Mem)` and `(ret, Mem')` as plain data. -/
inductive FunExpr where
  /-- A constant. -/
  | const (v : Word)
  /-- An argument, counted from 0: `arg 0` is a1. -/
  | arg (k : Nat)
  /-- How often the innermost loop, or the write, has gone round already. -/
  | index
  /-- What the innermost loop has computed so far. -/
  | acc
  /-- The value of `n` bytes of data memory, in the host byte order (R52). -/
  | load (n : Fin 9) (addr : FunExpr)
  /-- 1 if `size` bytes at the address may be read (R57), else 0: what a function that checks its pointers asks. -/
  | readable (size addr : FunExpr)
  /-- 1 if `size` bytes at the address may be written (R57), else 0. -/
  | writable (size addr : FunExpr)
  /-- Any value at all, the same for the same `which` in one call: where the relation allows several. -/
  | any (which : FunExpr)
  /-- An operation. -/
  | op (o : FunOp) (a b : FunExpr)
  /-- The second term where the first is not 0, else the third. -/
  | cond (test thenE elseE : FunExpr)
  /-- `body` as often as `count` says, each time with the value before it in `acc`; `init` is the first. -/
  | loop (count init body : FunExpr)
  deriving DecidableEq, Repr

/-- Bytes that an outcome replaces: for each index below `count`, the byte at `addr` becomes the low byte of `value`, both
computed from the data memory before the call. -/
structure FunWrite where
  count : FunExpr
  addr : FunExpr
  value : FunExpr
  deriving DecidableEq, Repr

/-- One outcome that a description allows (R247), over the arguments and the data memory of the call; it fails where
`fails` is not 0 (R348). -/
structure OutcomeDesc where
  ret : FunExpr
  writes : List FunWrite
  fails : FunExpr
  deriving DecidableEq, Repr

/-- The outcomes that a description allows for arguments and a data memory for which `guard` is not 0. -/
structure FunCase where
  guard : FunExpr
  outcomes : List OutcomeDesc
  deriving DecidableEq, Repr

/-- The description of one function of the runtime (R247): how many arguments it takes, whether it may fault, and its
relation between arguments with data memory and outcomes. The first case that applies gives the outcomes; where none
applies nothing is known, and the outcome is free (`Config.freeCall`). -/
structure FunDesc where
  arity : Fin 6
  canFail : Bool
  cases : List FunCase
  deriving DecidableEq, Repr

/-- A platform function of the 64-bit immediate instruction (R311), fixed for the run: `free` is defined everywhere
and nothing is known of its values; `table` is the finite partial function that the list gives. -/
inductive PlatFun (α : Type) where
  | free
  | table (entries : List (α × Word))
  deriving DecidableEq, Repr

/-- The parameters of R6. None of them is changed by any instruction (R20). -/
structure Config where
  /-- `PROGRAM`: the slots `P[0..N-1]` (R33). -/
  program : List Slot
  /-- `MAX_INSNS` (R374): a loader's bound on N, if there is one. -/
  maxInsns : Option Nat
  /-- `HOST_ENDIAN` (R51). -/
  hostEndian : ByteOrder
  /-- `DIVMOD_SIGNED` (R122, R152). -/
  divmodSigned : DivMode
  /-- `SHIFT_OVERWIDTH` (R123, R153). -/
  shiftOverwidth : ShiftMode
  /-- `LOCAL_CALL_DISP` (R251). -/
  localCallDisp : DispField
  /-- `MAX_CALL_DEPTH` (R249, R347). -/
  maxCallDepth : Nat
  /-- `STRICT_ALIGN` (R56). -/
  strictAlign : Bool
  /-- `UNWRITTEN_READ` (R35). -/
  unwrittenRead : UnwrittenMode
  /-- `REGIONS` (R57). -/
  regions : List Region
  /-- `STACK_TOP` (R249, R371): the entry value of x[10]. -/
  stackTop : Word
  /-- `ENTRY_ARGS` (R36): the arguments in x[1], x[2] and so on, at most five. -/
  entryArgs : List Word
  /-- `HELPERS` (R247). -/
  helpers : List (BitVec 32 × FunDesc)
  /-- `RUNTIME_FUNCS` (R247). -/
  runtimeFuncs : List (BitVec 32 × FunDesc)
  /-- `MAPS_SUPPORTED` (R311). -/
  mapsSupported : Bool
  /-- `VARS_SUPPORTED` (R311). -/
  varsSupported : Bool
  /-- `map_by_fd` (R311). -/
  mapByFd : PlatFun (BitVec 32)
  /-- `map_by_idx` (R311). -/
  mapByIdx : PlatFun (BitVec 32)
  /-- `mva` (R311): from the address of a map object to the address of its first value. -/
  mva : PlatFun Word
  /-- `variable_addr` (R311). -/
  variableAddr : PlatFun (BitVec 32)
  /-- `code_addr` (R317): from the index of the current slot and the signed offset. -/
  codeAddr : PlatFun (Int × Int)
  /-- `REGULAR_ACCESS_ATOMIC` (R60). -/
  regularAccessAtomic : Bool
  deriving DecidableEq, Repr

/-- The parameters at the spec's defaults (R6), with an empty program, no function tables and one stack region of
`512 * MAX_CALL_DEPTH` bytes. DESIGN CHOICE, unsafe (log 2, 4): `localCallDisp`, the place of the stack and the platform
functions are the model's, because the spec gives them no default. -/
def Config.default : Config where
  program := []
  maxInsns := none
  hostEndian := .little
  divmodSigned := .unsigned
  shiftOverwidth := .mask
  localCallDisp := .offset
  maxCallDepth := 8
  strictAlign := true
  unwrittenRead := .fault
  regions := [⟨0xf000, 0x1000, true, true, false⟩]
  stackTop := 0x10000
  entryArgs := []
  helpers := []
  runtimeFuncs := []
  mapsSupported := false
  varsSupported := false
  mapByFd := .free
  mapByIdx := .free
  mva := .free
  variableAddr := .free
  codeAddr := .free
  regularAccessAtomic := false

/-- The parameters of the machine right after reset: the defaults, but for `UNWRITTEN_READ = any`, the other of the two
values that R6 allows, so that a program can run from reset. DESIGN CHOICE, unsafe (log 3). -/
def Config.atReset : Config := { Config.default with unwrittenRead := .any }

/-- The byte that a load finds at an address nothing has stored to (R263, R350): arbitrary, but the same at
every load (U14 of `93_implementation_defined.md`). A free value (log 6). -/
opaque Config.freeByte : Nat → Byte

/-- The value that reading a register without a value returns under `UNWRITTEN_READ = any` (R35), chosen afresh at each
read: the argument counts the free choices of the run. A free value (log 5). -/
opaque Config.freeWord : Nat → Word

/-- The outcome of a function of the runtime where no case of its description applies (R247): by space, number,
arguments, data memory and the count of free choices. A free value (log 7). -/
opaque Config.freeCall : CallSpace → BitVec 32 → List Word → List Host.Cell → Nat → CallOutcome

/-- Which of several outcomes a description allows is the one that happens (R247): by the count of free choices.
A free value (log 7). -/
opaque Config.freePick : Nat → Nat

/-- The values that a description leaves open with `FunExpr.any` (R247): by the count of free choices and which of them
it is. A free value (log 7). -/
opaque Config.freeAny : Nat → Word → Word

/-- The values of `map_by_fd` where the platform tells nothing of it (R311). A free value, the same in every run: the model's
choice, since R379 (e) fixes it per run only (log 8). -/
opaque Config.freeMapByFd : BitVec 32 → Word

/-- The values of `map_by_idx` where the platform tells nothing of it (R311). A free value, the same in every run: the model's
choice, since R379 (e) fixes it per run only (log 8). -/
opaque Config.freeMapByIdx : BitVec 32 → Word

/-- The values of `mva` where the platform tells nothing of it (R311). A free value, the same in every run: the model's
choice, since R379 (e) fixes it per run only (log 8). -/
opaque Config.freeMva : Word → Word

/-- The values of `variable_addr` where the platform tells nothing of it (R311). A free value, the same in every run: the model's
choice, since R379 (e) fixes it per run only (log 8). -/
opaque Config.freeVariableAddr : BitVec 32 → Word

/-- The values of `code_addr` where the platform tells nothing of it (R317). A free value, the same in every run and for every
program: the model's choice, since R379 (e) fixes it per run only (log 8). -/
opaque Config.freeCodeAddr : Int × Int → Word

end Sys2Proof
end

