-- ==== Sys2Proof/Syntax.lean ====
section
/-! DEFINITION. The instructions (R4, R101): one constructor for each of the 152 instruction forms of the opcode
table, and one for its row of the pseudo slot. The operands of a constructor are the fields that its format uses
(R98), destination first (R101): a register number, `imm` and `nextImm` as 32-bit patterns, `off` as the 16-bit
pattern of `offset`. Selector fields and fields that must be zero are no operands. -/

namespace Sys2Proof

/-- The reasons of an `IllegalInstruction` fault (R341). -/
inductive IllegalReason where
  /-- An opcode byte that the appendix does not list, or 0x00 at a first slot. -/
  | undefinedOpcode
  /-- A selector field (`src` of 0x85 and 0x18, `imm` of byte swaps and atomics) with a value not in its table. -/
  | badSelector
  /-- A register number above 10, or R10 where the instruction would write it. -/
  | badRegister
  /-- A non-zero bit in a field the format does not use. -/
  | nonzeroUnusedField
  /-- 0x18 as the last slot, a malformed second slot, or `next_imm` non-zero where it is unused. -/
  | badWide
  /-- A map or variable form the platform does not support, or a platform function undefined for its argument. -/
  | unsupportedOptional
  /-- One of the eight deprecated packet access opcodes. -/
  | legacy
  deriving DecidableEq, Repr

/-- The instructions of the opcode table, in its order. -/
inductive Instr where
  -- BPF_ALU: 32-bit arithmetic (R120 to R149)
  | add32K (dst : RegNum) (imm : BitVec 32)
  | add32X (dst src : RegNum)
  | sub32K (dst : RegNum) (imm : BitVec 32)
  | sub32X (dst src : RegNum)
  | mul32K (dst : RegNum) (imm : BitVec 32)
  | mul32X (dst src : RegNum)
  | div32K (dst : RegNum) (imm : BitVec 32)
  | div32X (dst src : RegNum)
  | or32K (dst : RegNum) (imm : BitVec 32)
  | or32X (dst src : RegNum)
  | and32K (dst : RegNum) (imm : BitVec 32)
  | and32X (dst src : RegNum)
  | lsh32K (dst : RegNum) (imm : BitVec 32)
  | lsh32X (dst src : RegNum)
  | rsh32K (dst : RegNum) (imm : BitVec 32)
  | rsh32X (dst src : RegNum)
  | neg32 (dst : RegNum)
  | mod32K (dst : RegNum) (imm : BitVec 32)
  | mod32X (dst src : RegNum)
  | xor32K (dst : RegNum) (imm : BitVec 32)
  | xor32X (dst src : RegNum)
  | mov32K (dst : RegNum) (imm : BitVec 32)
  | mov32X (dst src : RegNum)
  | arsh32K (dst : RegNum) (imm : BitVec 32)
  | arsh32X (dst src : RegNum)
  -- BPF_ALU64: 64-bit arithmetic (R150 to R179)
  | add64K (dst : RegNum) (imm : BitVec 32)
  | add64X (dst src : RegNum)
  | sub64K (dst : RegNum) (imm : BitVec 32)
  | sub64X (dst src : RegNum)
  | mul64K (dst : RegNum) (imm : BitVec 32)
  | mul64X (dst src : RegNum)
  | div64K (dst : RegNum) (imm : BitVec 32)
  | div64X (dst src : RegNum)
  | or64K (dst : RegNum) (imm : BitVec 32)
  | or64X (dst src : RegNum)
  | and64K (dst : RegNum) (imm : BitVec 32)
  | and64X (dst src : RegNum)
  | lsh64K (dst : RegNum) (imm : BitVec 32)
  | lsh64X (dst src : RegNum)
  | rsh64K (dst : RegNum) (imm : BitVec 32)
  | rsh64X (dst src : RegNum)
  | neg64 (dst : RegNum)
  | mod64K (dst : RegNum) (imm : BitVec 32)
  | mod64X (dst src : RegNum)
  | xor64K (dst : RegNum) (imm : BitVec 32)
  | xor64X (dst src : RegNum)
  | mov64K (dst : RegNum) (imm : BitVec 32)
  | mov64X (dst src : RegNum)
  | arsh64K (dst : RegNum) (imm : BitVec 32)
  | arsh64X (dst src : RegNum)
  -- BPF_END: byte swaps (R180 to R188)
  | le16 (dst : RegNum)
  | le32 (dst : RegNum)
  | le64 (dst : RegNum)
  | be16 (dst : RegNum)
  | be32 (dst : RegNum)
  | be64 (dst : RegNum)
  -- BPF_JMP: jumps on 64-bit operands (R190 to R216)
  | ja (off : BitVec 16)
  | jeq64K (dst : RegNum) (imm : BitVec 32) (off : BitVec 16)
  | jeq64X (dst src : RegNum) (off : BitVec 16)
  | jgt64K (dst : RegNum) (imm : BitVec 32) (off : BitVec 16)
  | jgt64X (dst src : RegNum) (off : BitVec 16)
  | jge64K (dst : RegNum) (imm : BitVec 32) (off : BitVec 16)
  | jge64X (dst src : RegNum) (off : BitVec 16)
  | jset64K (dst : RegNum) (imm : BitVec 32) (off : BitVec 16)
  | jset64X (dst src : RegNum) (off : BitVec 16)
  | jne64K (dst : RegNum) (imm : BitVec 32) (off : BitVec 16)
  | jne64X (dst src : RegNum) (off : BitVec 16)
  | jsgt64K (dst : RegNum) (imm : BitVec 32) (off : BitVec 16)
  | jsgt64X (dst src : RegNum) (off : BitVec 16)
  | jsge64K (dst : RegNum) (imm : BitVec 32) (off : BitVec 16)
  | jsge64X (dst src : RegNum) (off : BitVec 16)
  | jlt64K (dst : RegNum) (imm : BitVec 32) (off : BitVec 16)
  | jlt64X (dst src : RegNum) (off : BitVec 16)
  | jle64K (dst : RegNum) (imm : BitVec 32) (off : BitVec 16)
  | jle64X (dst src : RegNum) (off : BitVec 16)
  | jslt64K (dst : RegNum) (imm : BitVec 32) (off : BitVec 16)
  | jslt64X (dst src : RegNum) (off : BitVec 16)
  | jsle64K (dst : RegNum) (imm : BitVec 32) (off : BitVec 16)
  | jsle64X (dst src : RegNum) (off : BitVec 16)
  -- BPF_JMP32: jumps on 32-bit operands (R220 to R244)
  | jeq32K (dst : RegNum) (imm : BitVec 32) (off : BitVec 16)
  | jeq32X (dst src : RegNum) (off : BitVec 16)
  | jgt32K (dst : RegNum) (imm : BitVec 32) (off : BitVec 16)
  | jgt32X (dst src : RegNum) (off : BitVec 16)
  | jge32K (dst : RegNum) (imm : BitVec 32) (off : BitVec 16)
  | jge32X (dst src : RegNum) (off : BitVec 16)
  | jset32K (dst : RegNum) (imm : BitVec 32) (off : BitVec 16)
  | jset32X (dst src : RegNum) (off : BitVec 16)
  | jne32K (dst : RegNum) (imm : BitVec 32) (off : BitVec 16)
  | jne32X (dst src : RegNum) (off : BitVec 16)
  | jsgt32K (dst : RegNum) (imm : BitVec 32) (off : BitVec 16)
  | jsgt32X (dst src : RegNum) (off : BitVec 16)
  | jsge32K (dst : RegNum) (imm : BitVec 32) (off : BitVec 16)
  | jsge32X (dst src : RegNum) (off : BitVec 16)
  | jlt32K (dst : RegNum) (imm : BitVec 32) (off : BitVec 16)
  | jlt32X (dst src : RegNum) (off : BitVec 16)
  | jle32K (dst : RegNum) (imm : BitVec 32) (off : BitVec 16)
  | jle32X (dst src : RegNum) (off : BitVec 16)
  | jslt32K (dst : RegNum) (imm : BitVec 32) (off : BitVec 16)
  | jslt32X (dst src : RegNum) (off : BitVec 16)
  | jsle32K (dst : RegNum) (imm : BitVec 32) (off : BitVec 16)
  | jsle32X (dst src : RegNum) (off : BitVec 16)
  -- BPF_CALL and BPF_EXIT (R246 to R254)
  | callHelper (id : BitVec 32)
  | callLocal (off : BitVec 16) (imm : BitVec 32)
  | callRuntime (id : BitVec 32)
  | exit
  -- BPF_MEM: regular loads and stores (R260 to R275)
  | ldxB (dst src : RegNum) (off : BitVec 16)
  | ldxH (dst src : RegNum) (off : BitVec 16)
  | ldxW (dst src : RegNum) (off : BitVec 16)
  | ldxDW (dst src : RegNum) (off : BitVec 16)
  | stB (dst : RegNum) (off : BitVec 16) (imm : BitVec 32)
  | stH (dst : RegNum) (off : BitVec 16) (imm : BitVec 32)
  | stW (dst : RegNum) (off : BitVec 16) (imm : BitVec 32)
  | stDW (dst : RegNum) (off : BitVec 16) (imm : BitVec 32)
  | stxB (dst : RegNum) (off : BitVec 16) (src : RegNum)
  | stxH (dst : RegNum) (off : BitVec 16) (src : RegNum)
  | stxW (dst : RegNum) (off : BitVec 16) (src : RegNum)
  | stxDW (dst : RegNum) (off : BitVec 16) (src : RegNum)
  -- BPF_ATOMIC: atomic operations (R280 to R305)
  | atomicAdd32 (dst : RegNum) (off : BitVec 16) (src : RegNum)
  | atomicFetchAdd32 (dst : RegNum) (off : BitVec 16) (src : RegNum)
  | atomicOr32 (dst : RegNum) (off : BitVec 16) (src : RegNum)
  | atomicFetchOr32 (dst : RegNum) (off : BitVec 16) (src : RegNum)
  | atomicAnd32 (dst : RegNum) (off : BitVec 16) (src : RegNum)
  | atomicFetchAnd32 (dst : RegNum) (off : BitVec 16) (src : RegNum)
  | atomicXor32 (dst : RegNum) (off : BitVec 16) (src : RegNum)
  | atomicFetchXor32 (dst : RegNum) (off : BitVec 16) (src : RegNum)
  | atomicXchg32 (dst : RegNum) (off : BitVec 16) (src : RegNum)
  | atomicCmpxchg32 (dst : RegNum) (off : BitVec 16) (src : RegNum)
  | atomicAdd64 (dst : RegNum) (off : BitVec 16) (src : RegNum)
  | atomicFetchAdd64 (dst : RegNum) (off : BitVec 16) (src : RegNum)
  | atomicOr64 (dst : RegNum) (off : BitVec 16) (src : RegNum)
  | atomicFetchOr64 (dst : RegNum) (off : BitVec 16) (src : RegNum)
  | atomicAnd64 (dst : RegNum) (off : BitVec 16) (src : RegNum)
  | atomicFetchAnd64 (dst : RegNum) (off : BitVec 16) (src : RegNum)
  | atomicXor64 (dst : RegNum) (off : BitVec 16) (src : RegNum)
  | atomicFetchXor64 (dst : RegNum) (off : BitVec 16) (src : RegNum)
  | atomicXchg64 (dst : RegNum) (off : BitVec 16) (src : RegNum)
  | atomicCmpxchg64 (dst : RegNum) (off : BitVec 16) (src : RegNum)
  -- BPF_IMM: 64-bit immediates (R310 to R319)
  | ldImm64 (dst : RegNum) (imm nextImm : BitVec 32)
  | ldMapFd (dst : RegNum) (imm : BitVec 32)
  | ldMapFdValue (dst : RegNum) (imm nextImm : BitVec 32)
  | ldVarAddr (dst : RegNum) (imm : BitVec 32)
  | ldCodeAddr (dst : RegNum) (imm : BitVec 32)
  | ldMapIdx (dst : RegNum) (imm : BitVec 32)
  | ldMapIdxValue (dst : RegNum) (imm nextImm : BitVec 32)
  -- BPF_ABS and BPF_IND, refused (R322 to R330), and the pseudo slot (R84, R92)
  | ldAbsW (dst src : BitVec 4) (off : BitVec 16) (imm : BitVec 32)
  | ldAbsH (dst src : BitVec 4) (off : BitVec 16) (imm : BitVec 32)
  | ldAbsB (dst src : BitVec 4) (off : BitVec 16) (imm : BitVec 32)
  | ldAbsDW (dst src : BitVec 4) (off : BitVec 16) (imm : BitVec 32)
  | ldIndW (dst src : BitVec 4) (off : BitVec 16) (imm : BitVec 32)
  | ldIndH (dst src : BitVec 4) (off : BitVec 16) (imm : BitVec 32)
  | ldIndB (dst src : BitVec 4) (off : BitVec 16) (imm : BitVec 32)
  | ldIndDW (dst src : BitVec 4) (off : BitVec 16) (imm : BitVec 32)
  | pseudoSlot (imm : BitVec 32)
  deriving DecidableEq, Repr

end Sys2Proof
end

