-- ==== Sys2Proof/WellFormed.lean ====
section
/-! DEFINITION. Well-formedness: the register constraints that the types of the operands do not carry (R94: R10 is
never written), and what the parameters of a platform must satisfy (R57, R249, R370, R375). -/

namespace Sys2Proof

/-- A register that an instruction may write: R0 to R9 (R23, R94). -/
def writableReg (r : RegNum) : Bool := r != 10

/-- The register constraints of R94 and R284: `dst` is not R10 where x[dst] is written, nor `src` where an atomic
operation writes x[src]. -/
def Instr.wf (i : Instr) : Bool :=
  match i with
  | .add32K dst _ => writableReg dst
  | .add32X dst _ => writableReg dst
  | .sub32K dst _ => writableReg dst
  | .sub32X dst _ => writableReg dst
  | .mul32K dst _ => writableReg dst
  | .mul32X dst _ => writableReg dst
  | .div32K dst _ => writableReg dst
  | .div32X dst _ => writableReg dst
  | .or32K dst _ => writableReg dst
  | .or32X dst _ => writableReg dst
  | .and32K dst _ => writableReg dst
  | .and32X dst _ => writableReg dst
  | .lsh32K dst _ => writableReg dst
  | .lsh32X dst _ => writableReg dst
  | .rsh32K dst _ => writableReg dst
  | .rsh32X dst _ => writableReg dst
  | .neg32 dst => writableReg dst
  | .mod32K dst _ => writableReg dst
  | .mod32X dst _ => writableReg dst
  | .xor32K dst _ => writableReg dst
  | .xor32X dst _ => writableReg dst
  | .mov32K dst _ => writableReg dst
  | .mov32X dst _ => writableReg dst
  | .arsh32K dst _ => writableReg dst
  | .arsh32X dst _ => writableReg dst
  | .add64K dst _ => writableReg dst
  | .add64X dst _ => writableReg dst
  | .sub64K dst _ => writableReg dst
  | .sub64X dst _ => writableReg dst
  | .mul64K dst _ => writableReg dst
  | .mul64X dst _ => writableReg dst
  | .div64K dst _ => writableReg dst
  | .div64X dst _ => writableReg dst
  | .or64K dst _ => writableReg dst
  | .or64X dst _ => writableReg dst
  | .and64K dst _ => writableReg dst
  | .and64X dst _ => writableReg dst
  | .lsh64K dst _ => writableReg dst
  | .lsh64X dst _ => writableReg dst
  | .rsh64K dst _ => writableReg dst
  | .rsh64X dst _ => writableReg dst
  | .neg64 dst => writableReg dst
  | .mod64K dst _ => writableReg dst
  | .mod64X dst _ => writableReg dst
  | .xor64K dst _ => writableReg dst
  | .xor64X dst _ => writableReg dst
  | .mov64K dst _ => writableReg dst
  | .mov64X dst _ => writableReg dst
  | .arsh64K dst _ => writableReg dst
  | .arsh64X dst _ => writableReg dst
  | .le16 dst => writableReg dst
  | .le32 dst => writableReg dst
  | .le64 dst => writableReg dst
  | .be16 dst => writableReg dst
  | .be32 dst => writableReg dst
  | .be64 dst => writableReg dst
  | .ja _ => true
  | .jeq64K _ _ _ => true
  | .jeq64X _ _ _ => true
  | .jgt64K _ _ _ => true
  | .jgt64X _ _ _ => true
  | .jge64K _ _ _ => true
  | .jge64X _ _ _ => true
  | .jset64K _ _ _ => true
  | .jset64X _ _ _ => true
  | .jne64K _ _ _ => true
  | .jne64X _ _ _ => true
  | .jsgt64K _ _ _ => true
  | .jsgt64X _ _ _ => true
  | .jsge64K _ _ _ => true
  | .jsge64X _ _ _ => true
  | .jlt64K _ _ _ => true
  | .jlt64X _ _ _ => true
  | .jle64K _ _ _ => true
  | .jle64X _ _ _ => true
  | .jslt64K _ _ _ => true
  | .jslt64X _ _ _ => true
  | .jsle64K _ _ _ => true
  | .jsle64X _ _ _ => true
  | .jeq32K _ _ _ => true
  | .jeq32X _ _ _ => true
  | .jgt32K _ _ _ => true
  | .jgt32X _ _ _ => true
  | .jge32K _ _ _ => true
  | .jge32X _ _ _ => true
  | .jset32K _ _ _ => true
  | .jset32X _ _ _ => true
  | .jne32K _ _ _ => true
  | .jne32X _ _ _ => true
  | .jsgt32K _ _ _ => true
  | .jsgt32X _ _ _ => true
  | .jsge32K _ _ _ => true
  | .jsge32X _ _ _ => true
  | .jlt32K _ _ _ => true
  | .jlt32X _ _ _ => true
  | .jle32K _ _ _ => true
  | .jle32X _ _ _ => true
  | .jslt32K _ _ _ => true
  | .jslt32X _ _ _ => true
  | .jsle32K _ _ _ => true
  | .jsle32X _ _ _ => true
  | .callHelper _ => true
  | .callLocal _ _ => true
  | .callRuntime _ => true
  | .exit => true
  | .ldxB dst _ _ => writableReg dst
  | .ldxH dst _ _ => writableReg dst
  | .ldxW dst _ _ => writableReg dst
  | .ldxDW dst _ _ => writableReg dst
  | .stB _ _ _ => true
  | .stH _ _ _ => true
  | .stW _ _ _ => true
  | .stDW _ _ _ => true
  | .stxB _ _ _ => true
  | .stxH _ _ _ => true
  | .stxW _ _ _ => true
  | .stxDW _ _ _ => true
  | .atomicAdd32 _ _ _ => true
  | .atomicFetchAdd32 _ _ src => writableReg src
  | .atomicOr32 _ _ _ => true
  | .atomicFetchOr32 _ _ src => writableReg src
  | .atomicAnd32 _ _ _ => true
  | .atomicFetchAnd32 _ _ src => writableReg src
  | .atomicXor32 _ _ _ => true
  | .atomicFetchXor32 _ _ src => writableReg src
  | .atomicXchg32 _ _ src => writableReg src
  | .atomicCmpxchg32 _ _ _ => true
  | .atomicAdd64 _ _ _ => true
  | .atomicFetchAdd64 _ _ src => writableReg src
  | .atomicOr64 _ _ _ => true
  | .atomicFetchOr64 _ _ src => writableReg src
  | .atomicAnd64 _ _ _ => true
  | .atomicFetchAnd64 _ _ src => writableReg src
  | .atomicXor64 _ _ _ => true
  | .atomicFetchXor64 _ _ src => writableReg src
  | .atomicXchg64 _ _ src => writableReg src
  | .atomicCmpxchg64 _ _ _ => true
  | .ldImm64 dst _ _ => writableReg dst
  | .ldMapFd dst _ => writableReg dst
  | .ldMapFdValue dst _ _ => writableReg dst
  | .ldVarAddr dst _ => writableReg dst
  | .ldCodeAddr dst _ => writableReg dst
  | .ldMapIdx dst _ => writableReg dst
  | .ldMapIdxValue dst _ _ => writableReg dst
  | .ldAbsW _ _ _ _ => true
  | .ldAbsH _ _ _ _ => true
  | .ldAbsB _ _ _ _ => true
  | .ldAbsDW _ _ _ _ => true
  | .ldIndW _ _ _ _ => true
  | .ldIndH _ _ _ _ => true
  | .ldIndB _ _ _ _ => true
  | .ldIndDW _ _ _ _ => true
  | .pseudoSlot _ => true

/-- A region lies inside the address space (R57). -/
def Region.inSpace (r : Region) : Bool := r.base + r.size ≤ 2 ^ 64

/-- Two regions have no address in common (R57). -/
def Region.disjoint (r q : Region) : Bool := r.base + r.size ≤ q.base || q.base + q.size ≤ r.base

/-- The regions of a list are pairwise disjoint (R57). -/
def regionsDisjoint : List Region → Bool
  | [] => true
  | r :: rest => rest.all r.disjoint && regionsDisjoint rest

/-- The stack region (R58, R249, R375): exactly the `512 * MAX_CALL_DEPTH` bytes below `STACK_TOP`, readable, writable and
not shared. -/
def Config.isStackRegion (c : Config) (r : Region) : Bool :=
  r.readable && r.writable && !r.shared && r.size == 512 * c.maxCallDepth && r.base + r.size == c.stackTop.toNat

/-- An address lies in the region (R57). -/
def Region.holds (r : Region) (a : Word) : Bool := r.base ≤ a.toNat && a.toNat < r.base + r.size

/-- An address is a handle, not a place of data memory: it lies in no region (R58). -/
def Config.isHandle (c : Config) (a : Word) : Bool := c.regions.all fun r => !r.holds a

/-- A region begins at the address. -/
def Config.startsRegion (c : Config) (a : Word) : Bool := c.regions.any fun r => r.base == a.toNat

/-- A shared region begins at the address. -/
def Config.startsShared (c : Config) (a : Word) : Bool := c.regions.any fun r => r.shared && r.base == a.toNat

/-- Every value that a platform function may have satisfies a condition. Of a function of which nothing is known that is
never certain. -/
def PlatFun.values {α : Type} (f : PlatFun α) (ok : Word → Bool) : Bool :=
  match f with
  | .free => false
  | .table entries => entries.all fun e => ok e.2

/-- Every argument for which a platform function may be defined satisfies a condition. -/
def PlatFun.keys {α : Type} (f : PlatFun α) (ok : α → Bool) : Bool :=
  match f with
  | .free => false
  | .table entries => entries.all fun e => ok e.1

/-- The platform functions and the memory map agree (R58 (3) and (4), R375 (6), U26 of `93_implementation_defined.md`):
where maps are supported, the address of a map object is a handle and the address of its first value begins a shared
region; where variables are supported, the address of a variable begins a region. -/
def Config.platformRegions (c : Config) : Bool :=
  (!c.mapsSupported || (c.mapByFd.values c.isHandle && c.mapByIdx.values c.isHandle && c.mva.keys c.isHandle
    && c.mva.values c.startsShared))
    && (!c.varsSupported || c.variableAddr.values c.startsRegion)

/-- A term of a description names only arguments that the function takes (R247). -/
def FunExpr.wf (arity : Nat) (e : FunExpr) : Bool :=
  match e with
  | .const _ => true
  | .arg k => k < arity
  | .index => true
  | .acc => true
  | .load _ a => a.wf arity
  | .readable n a => n.wf arity && a.wf arity
  | .writable n a => n.wf arity && a.wf arity
  | .any k => k.wf arity
  | .op _ a b => a.wf arity && b.wf arity
  | .cond t a b => t.wf arity && a.wf arity && b.wf arity
  | .loop n a b => n.wf arity && a.wf arity && b.wf arity

/-- An outcome of a description names only arguments that the function takes (R247). -/
def OutcomeDesc.wf (arity : Nat) (o : OutcomeDesc) : Bool :=
  o.ret.wf arity && o.fails.wf arity
    && o.writes.all fun w => w.count.wf arity && w.addr.wf arity && w.value.wf arity

/-- Each case of a description allows some outcome, and none names an argument that the function does not take (R247). -/
def FunDesc.wf (f : FunDesc) : Bool :=
  f.cases.all fun k => k.guard.wf f.arity.val && !k.outcomes.isEmpty && k.outcomes.all (OutcomeDesc.wf f.arity.val)

/-- What the host must set up before the rules of the ISA hold (R370, R375): disjoint regions inside the address
space, the stack region, its top aligned to 8, at most five arguments, well-formed descriptions, and platform functions
that agree with the regions. -/
def Config.wf (c : Config) : Bool :=
  c.regions.all Region.inSpace && regionsDisjoint c.regions && c.regions.any c.isStackRegion
    && c.stackTop.toNat % 8 == 0 && 0 < c.maxCallDepth && c.entryArgs.length ≤ 5
    && c.helpers.all (fun e => e.2.wf) && c.runtimeFuncs.all (fun e => e.2.wf) && c.platformRegions

end Sys2Proof
end

