-- ==== Sys2Proof/Decode.lean ====
section
/-! DEFINITION. Decoding and encoding. The program text is an array of 64-bit slots (R80); an instruction is one slot,
or two for opcode 0x18 (R92). The decoder is total: it gives the instruction, or one reason of R341 why there is none.
The encoder stands after it and is written from the same formats (R98). -/

namespace Sys2Proof

/-! ### Fields of a slot (R81) -/

/-- The five fields of a basic instruction (R81). -/
structure Fields where
  opcode : BitVec 8
  dst : BitVec 4
  src : BitVec 4
  offset : BitVec 16
  imm : BitVec 32
  deriving DecidableEq, Repr

/-- The fields as slices of the 64-bit value of a slot (R81). -/
def Fields.ofSlot (w : Slot) : Fields where
  opcode := w.extractLsb' 0 8
  dst := w.extractLsb' 8 4
  src := w.extractLsb' 12 4
  offset := w.extractLsb' 16 16
  imm := w.extractLsb' 32 32

/-- The 64-bit value of a slot, most significant field first (R81). -/
def Fields.toSlot (f : Fields) : Slot := f.imm ++ f.offset ++ f.src ++ f.dst ++ f.opcode

/-! ### Checks shared by the formats -/

/-- A register number that is only read: 0 to 10 (R94). -/
def regOf (n : BitVec 4) : Except IllegalReason RegNum :=
  if h : n.toNat < 11 then .ok ⟨n.toNat, h⟩ else .error .badRegister

/-- A register number that is written: 0 to 9 (R94). -/
def writtenRegOf (n : BitVec 4) : Except IllegalReason RegNum := do
  let r ← regOf n
  if writableReg r then .ok r else .error .badRegister

/-- "Unused fields must be set to zero." (R83) -/
def requireUnused (ok : Bool) : Except IllegalReason Unit :=
  if ok then .ok () else .error .nonzeroUnusedField

/-- How the rows of one opcode byte are read: from the fields of the first slot, and the slot after it if the program
has one. -/
abbrev RowDecoder := Fields → Option Slot → Except IllegalReason Instr

/-! ### The formats of R98 -/

/-- Format `ALU_K`. -/
def rowAluK (mk : RegNum → BitVec 32 → Instr) : RowDecoder := fun f _ => do
  let d ← writtenRegOf f.dst
  requireUnused (f.src == 0 && f.offset == 0)
  .ok (mk d f.imm)

/-- Format `ALU_X`. -/
def rowAluX (mk : RegNum → RegNum → Instr) : RowDecoder := fun f _ => do
  let d ← writtenRegOf f.dst
  let s ← regOf f.src
  requireUnused (f.offset == 0 && f.imm == 0)
  .ok (mk d s)

/-- Format `ALU_UN`. -/
def rowAluUn (mk : RegNum → Instr) : RowDecoder := fun f _ => do
  let d ← writtenRegOf f.dst
  requireUnused (f.src == 0 && f.offset == 0 && f.imm == 0)
  .ok (mk d)

/-- A byte swap of one width (R180). -/
def rowSwapOf (mk : RegNum → Instr) : RowDecoder := fun f _ => do
  let d ← writtenRegOf f.dst
  requireUnused (f.src == 0 && f.offset == 0)
  .ok (mk d)

/-- Format `END`: `imm` selects the width (R180). -/
def rowByteSwap (mk16 mk32 mk64 : RegNum → Instr) : RowDecoder := fun f next =>
  if f.imm = 16 then rowSwapOf mk16 f next
  else if f.imm = 32 then rowSwapOf mk32 f next
  else if f.imm = 64 then rowSwapOf mk64 f next
  else .error .badSelector

/-- Format `JA`. -/
def rowJump : RowDecoder := fun f _ => do
  requireUnused (f.dst == 0 && f.src == 0 && f.imm == 0)
  .ok (.ja f.offset)

/-- Format `JCC_K`. -/
def rowJccK (mk : RegNum → BitVec 32 → BitVec 16 → Instr) : RowDecoder := fun f _ => do
  let d ← regOf f.dst
  requireUnused (f.src == 0)
  .ok (mk d f.imm f.offset)

/-- Format `JCC_X`. -/
def rowJccX (mk : RegNum → RegNum → BitVec 16 → Instr) : RowDecoder := fun f _ => do
  let d ← regOf f.dst
  let s ← regOf f.src
  requireUnused (f.imm == 0)
  .ok (mk d s f.offset)

/-- Formats `CALL_ID` and `CALL_REL`: `src` selects the call (R246). Of a local call both `offset` and `imm` are kept;
which of them is the displacement, and whether `offset` must be zero, depends on `LOCAL_CALL_DISP` (R251). -/
def rowCall : RowDecoder := fun f _ =>
  if f.src = 0 then do
    requireUnused (f.dst == 0 && f.offset == 0)
    .ok (.callHelper f.imm)
  else if f.src = 1 then do
    requireUnused (f.dst == 0)
    .ok (.callLocal f.offset f.imm)
  else if f.src = 2 then do
    requireUnused (f.dst == 0 && f.offset == 0)
    .ok (.callRuntime f.imm)
  else .error .badSelector

/-- Format `EXIT`. -/
def rowExit : RowDecoder := fun f _ => do
  requireUnused (f.dst == 0 && f.src == 0 && f.offset == 0 && f.imm == 0)
  .ok .exit

/-- Format `LDX`. -/
def rowLdx (mk : RegNum → RegNum → BitVec 16 → Instr) : RowDecoder := fun f _ => do
  let d ← writtenRegOf f.dst
  let s ← regOf f.src
  requireUnused (f.imm == 0)
  .ok (mk d s f.offset)

/-- Format `ST`. -/
def rowSt (mk : RegNum → BitVec 16 → BitVec 32 → Instr) : RowDecoder := fun f _ => do
  let d ← regOf f.dst
  requireUnused (f.src == 0)
  .ok (mk d f.offset f.imm)

/-- Format `STX`. -/
def rowStx (mk : RegNum → BitVec 16 → RegNum → Instr) : RowDecoder := fun f _ => do
  let d ← regOf f.dst
  let s ← regOf f.src
  requireUnused (f.imm == 0)
  .ok (mk d f.offset s)

/-- The ten atomic operations on 32 bits: the selector in `imm`, whether x[src] is written (R284), the form. -/
def atomic32 : List (BitVec 32 × Bool × (RegNum → BitVec 16 → RegNum → Instr)) :=
  [(0x00#32, false, .atomicAdd32), (0x01#32, true, .atomicFetchAdd32),
   (0x40#32, false, .atomicOr32), (0x41#32, true, .atomicFetchOr32),
   (0x50#32, false, .atomicAnd32), (0x51#32, true, .atomicFetchAnd32),
   (0xa0#32, false, .atomicXor32), (0xa1#32, true, .atomicFetchXor32),
   (0xe1#32, true, .atomicXchg32), (0xf1#32, false, .atomicCmpxchg32)]

/-- The ten atomic operations on 64 bits. -/
def atomic64 : List (BitVec 32 × Bool × (RegNum → BitVec 16 → RegNum → Instr)) :=
  [(0x00#32, false, .atomicAdd64), (0x01#32, true, .atomicFetchAdd64),
   (0x40#32, false, .atomicOr64), (0x41#32, true, .atomicFetchOr64),
   (0x50#32, false, .atomicAnd64), (0x51#32, true, .atomicFetchAnd64),
   (0xa0#32, false, .atomicXor64), (0xa1#32, true, .atomicFetchXor64),
   (0xe1#32, true, .atomicXchg64), (0xf1#32, false, .atomicCmpxchg64)]

/-- The register x[src] of an atomic operation, which some forms write (R284). -/
def atomicSrcOf (written : Bool) (n : BitVec 4) : Except IllegalReason RegNum :=
  if written then writtenRegOf n else regOf n

/-- Format `ATOMIC`: `imm` selects the operation (R280). -/
def rowAtomic (forms : List (BitVec 32 × Bool × (RegNum → BitVec 16 → RegNum → Instr))) : RowDecoder := fun f _ =>
  match forms.lookup f.imm with
  | none => .error .badSelector
  | some (writesSrc, mk) => do
    let d ← regOf f.dst
    let s ← atomicSrcOf writesSrc f.src
    .ok (mk d f.offset s)

/-- `next_imm` of the slot after an instruction 0x18: the slot must be there, with opcode, dst, src and offset zero
(R84, R92). -/
def nextImmOf (next : Option Slot) : Except IllegalReason (BitVec 32) :=
  match next with
  | none => .error .badWide
  | some p => if p.extractLsb' 0 32 = 0 then .ok (p.extractLsb' 32 32) else .error .badWide

/-- A form that does not use `next_imm` requires it to be zero (R312). -/
def unusedNextImm (n : BitVec 32) (i : Instr) : Except IllegalReason Instr :=
  if n = 0 then .ok i else .error .badWide

/-- Format `LD64`: two slots, `src` selects the form (R310). -/
def rowImm64 : RowDecoder := fun f next =>
  if 6 < f.src.toNat then .error .badSelector else do
    let d ← writtenRegOf f.dst
    requireUnused (f.offset == 0)
    let n ← nextImmOf next
    if f.src = 0 then .ok (.ldImm64 d f.imm n)
    else if f.src = 1 then unusedNextImm n (.ldMapFd d f.imm)
    else if f.src = 2 then .ok (.ldMapFdValue d f.imm n)
    else if f.src = 3 then unusedNextImm n (.ldVarAddr d f.imm)
    else if f.src = 4 then unusedNextImm n (.ldCodeAddr d f.imm)
    else if f.src = 5 then unusedNextImm n (.ldMapIdx d f.imm)
    else .ok (.ldMapIdxValue d f.imm n)

/-- Format `LEGACY`: no field is checked (R322). -/
def rowLegacy (mk : BitVec 4 → BitVec 4 → BitVec 16 → BitVec 32 → Instr) : RowDecoder := fun f _ =>
  .ok (mk f.dst f.src f.offset f.imm)

/-- The table's row of the pseudo slot (R84): a slot that is zero but for `imm`. Its meaning as a first slot is always
`IllegalInstruction` (R92); with another bit set, opcode 0x00 is no row at all. -/
def rowPseudo : RowDecoder := fun f _ =>
  if f.dst = 0 ∧ f.src = 0 ∧ f.offset = 0 then .ok (.pseudoSlot f.imm) else .error .undefinedOpcode

/-! ### The opcode map (R95) -/

/-- The opcode bytes of BPF_ALU: 32-bit arithmetic (R120 to R149). -/
def rowsAlu32 : List (BitVec 8 × RowDecoder) :=
  [(0x04#8, rowAluK .add32K), (0x0c#8, rowAluX .add32X),
   (0x14#8, rowAluK .sub32K), (0x1c#8, rowAluX .sub32X),
   (0x24#8, rowAluK .mul32K), (0x2c#8, rowAluX .mul32X),
   (0x34#8, rowAluK .div32K), (0x3c#8, rowAluX .div32X),
   (0x44#8, rowAluK .or32K), (0x4c#8, rowAluX .or32X),
   (0x54#8, rowAluK .and32K), (0x5c#8, rowAluX .and32X),
   (0x64#8, rowAluK .lsh32K), (0x6c#8, rowAluX .lsh32X),
   (0x74#8, rowAluK .rsh32K), (0x7c#8, rowAluX .rsh32X),
   (0x84#8, rowAluUn .neg32), (0x94#8, rowAluK .mod32K),
   (0x9c#8, rowAluX .mod32X), (0xa4#8, rowAluK .xor32K),
   (0xac#8, rowAluX .xor32X), (0xb4#8, rowAluK .mov32K),
   (0xbc#8, rowAluX .mov32X), (0xc4#8, rowAluK .arsh32K),
   (0xcc#8, rowAluX .arsh32X)]

/-- The opcode bytes of BPF_ALU64: 64-bit arithmetic (R150 to R179). -/
def rowsAlu64 : List (BitVec 8 × RowDecoder) :=
  [(0x07#8, rowAluK .add64K), (0x0f#8, rowAluX .add64X),
   (0x17#8, rowAluK .sub64K), (0x1f#8, rowAluX .sub64X),
   (0x27#8, rowAluK .mul64K), (0x2f#8, rowAluX .mul64X),
   (0x37#8, rowAluK .div64K), (0x3f#8, rowAluX .div64X),
   (0x47#8, rowAluK .or64K), (0x4f#8, rowAluX .or64X),
   (0x57#8, rowAluK .and64K), (0x5f#8, rowAluX .and64X),
   (0x67#8, rowAluK .lsh64K), (0x6f#8, rowAluX .lsh64X),
   (0x77#8, rowAluK .rsh64K), (0x7f#8, rowAluX .rsh64X),
   (0x87#8, rowAluUn .neg64), (0x97#8, rowAluK .mod64K),
   (0x9f#8, rowAluX .mod64X), (0xa7#8, rowAluK .xor64K),
   (0xaf#8, rowAluX .xor64X), (0xb7#8, rowAluK .mov64K),
   (0xbf#8, rowAluX .mov64X), (0xc7#8, rowAluK .arsh64K),
   (0xcf#8, rowAluX .arsh64X)]

/-- The opcode bytes of BPF_END: byte swaps (R180 to R188). -/
def rowsByteSwap : List (BitVec 8 × RowDecoder) :=
  [(0xd4#8, rowByteSwap .le16 .le32 .le64), (0xdc#8, rowByteSwap .be16 .be32 .be64)]

/-- The opcode bytes of BPF_JMP: jumps on 64-bit operands (R190 to R216). -/
def rowsJump64 : List (BitVec 8 × RowDecoder) :=
  [(0x05#8, rowJump), (0x15#8, rowJccK .jeq64K),
   (0x1d#8, rowJccX .jeq64X), (0x25#8, rowJccK .jgt64K),
   (0x2d#8, rowJccX .jgt64X), (0x35#8, rowJccK .jge64K),
   (0x3d#8, rowJccX .jge64X), (0x45#8, rowJccK .jset64K),
   (0x4d#8, rowJccX .jset64X), (0x55#8, rowJccK .jne64K),
   (0x5d#8, rowJccX .jne64X), (0x65#8, rowJccK .jsgt64K),
   (0x6d#8, rowJccX .jsgt64X), (0x75#8, rowJccK .jsge64K),
   (0x7d#8, rowJccX .jsge64X), (0xa5#8, rowJccK .jlt64K),
   (0xad#8, rowJccX .jlt64X), (0xb5#8, rowJccK .jle64K),
   (0xbd#8, rowJccX .jle64X), (0xc5#8, rowJccK .jslt64K),
   (0xcd#8, rowJccX .jslt64X), (0xd5#8, rowJccK .jsle64K),
   (0xdd#8, rowJccX .jsle64X)]

/-- The opcode bytes of BPF_JMP32: jumps on 32-bit operands (R220 to R244). -/
def rowsJump32 : List (BitVec 8 × RowDecoder) :=
  [(0x16#8, rowJccK .jeq32K), (0x1e#8, rowJccX .jeq32X),
   (0x26#8, rowJccK .jgt32K), (0x2e#8, rowJccX .jgt32X),
   (0x36#8, rowJccK .jge32K), (0x3e#8, rowJccX .jge32X),
   (0x46#8, rowJccK .jset32K), (0x4e#8, rowJccX .jset32X),
   (0x56#8, rowJccK .jne32K), (0x5e#8, rowJccX .jne32X),
   (0x66#8, rowJccK .jsgt32K), (0x6e#8, rowJccX .jsgt32X),
   (0x76#8, rowJccK .jsge32K), (0x7e#8, rowJccX .jsge32X),
   (0xa6#8, rowJccK .jlt32K), (0xae#8, rowJccX .jlt32X),
   (0xb6#8, rowJccK .jle32K), (0xbe#8, rowJccX .jle32X),
   (0xc6#8, rowJccK .jslt32K), (0xce#8, rowJccX .jslt32X),
   (0xd6#8, rowJccK .jsle32K), (0xde#8, rowJccX .jsle32X)]

/-- The opcode bytes of BPF_CALL and BPF_EXIT (R246 to R254). -/
def rowsCallExit : List (BitVec 8 × RowDecoder) :=
  [(0x85#8, rowCall), (0x95#8, rowExit)]

/-- The opcode bytes of BPF_MEM: regular loads and stores (R260 to R275). -/
def rowsLoadStore : List (BitVec 8 × RowDecoder) :=
  [(0x71#8, rowLdx .ldxB), (0x69#8, rowLdx .ldxH),
   (0x61#8, rowLdx .ldxW), (0x79#8, rowLdx .ldxDW),
   (0x72#8, rowSt .stB), (0x6a#8, rowSt .stH),
   (0x62#8, rowSt .stW), (0x7a#8, rowSt .stDW),
   (0x73#8, rowStx .stxB), (0x6b#8, rowStx .stxH),
   (0x63#8, rowStx .stxW), (0x7b#8, rowStx .stxDW)]

/-- The opcode bytes of BPF_ATOMIC: atomic operations (R280 to R305). -/
def rowsAtomic : List (BitVec 8 × RowDecoder) :=
  [(0xc3#8, rowAtomic atomic32), (0xdb#8, rowAtomic atomic64)]

/-- The opcode bytes of BPF_IMM: 64-bit immediates (R310 to R319). -/
def rowsImm64 : List (BitVec 8 × RowDecoder) :=
  [(0x18#8, rowImm64)]

/-- The opcode bytes of BPF_ABS and BPF_IND, refused (R322 to R330), and the pseudo slot (R84, R92). -/
def rowsLegacy : List (BitVec 8 × RowDecoder) :=
  [(0x20#8, rowLegacy .ldAbsW), (0x28#8, rowLegacy .ldAbsH),
   (0x30#8, rowLegacy .ldAbsB), (0x38#8, rowLegacy .ldAbsDW),
   (0x40#8, rowLegacy .ldIndW), (0x48#8, rowLegacy .ldIndH),
   (0x50#8, rowLegacy .ldIndB), (0x58#8, rowLegacy .ldIndDW),
   (0x00#8, rowPseudo)]

/-- The 123 opcode bytes of R95. -/
def opcodeTable : List (BitVec 8 × RowDecoder) :=
  rowsAlu32 ++ rowsAlu64 ++ rowsByteSwap ++ rowsJump64 ++ rowsJump32 ++ rowsCallExit ++ rowsLoadStore ++ rowsAtomic ++ rowsImm64 ++ rowsLegacy

/-- The instruction at a slot (R92): by opcode, then by selector, then the registers and the unused fields. `next` is
the slot after it, if the program has one. -/
def decodeSlots (w : Slot) (next : Option Slot) : Except IllegalReason Instr :=
  match opcodeTable.lookup (Fields.ofSlot w).opcode with
  | none => .error .undefinedOpcode
  | some row => row (Fields.ofSlot w) next

/-- The instruction that the decoder reads from the bits `w` of an instruction, its first slot in bits 63..0 and its
second in bits 127..64, of which the lowest `nbits` are given and the others are zero. -/
def decodeTableWord (nbits w : Nat) : Option Instr :=
  match decodeSlots (BitVec.ofNat 64 (w % 2 ^ nbits)) (some (BitVec.ofNat 64 (w % 2 ^ nbits / 2 ^ 64))) with
  | .ok i => some i
  | .error _ => none

/-! ### Encoding -/

/-- The field that names a register (R81). -/
def regField (r : RegNum) : BitVec 4 := BitVec.ofNat 4 r.val

/-- A basic instruction: one slot (R81). -/
def basicSlot (opcode : BitVec 8) (dst src : BitVec 4) (offset : BitVec 16) (imm : BitVec 32) : List Slot :=
  [Fields.toSlot ⟨opcode, dst, src, offset, imm⟩]

/-- A wide instruction: a basic instruction and its pseudo instruction (R84). -/
def wideSlots (opcode : BitVec 8) (dst src : BitVec 4) (imm nextImm : BitVec 32) : List Slot :=
  [Fields.toSlot ⟨opcode, dst, src, 0, imm⟩, Fields.toSlot ⟨0, 0, 0, 0, nextImm⟩]

/-- The slots of an instruction (R98), every field that its format does not use zero (R83). -/
def encode (i : Instr) : List Slot :=
  match i with
  | .add32K dst imm => basicSlot 0x04#8 (regField dst) 0 0 imm
  | .add32X dst src => basicSlot 0x0c#8 (regField dst) (regField src) 0 0
  | .sub32K dst imm => basicSlot 0x14#8 (regField dst) 0 0 imm
  | .sub32X dst src => basicSlot 0x1c#8 (regField dst) (regField src) 0 0
  | .mul32K dst imm => basicSlot 0x24#8 (regField dst) 0 0 imm
  | .mul32X dst src => basicSlot 0x2c#8 (regField dst) (regField src) 0 0
  | .div32K dst imm => basicSlot 0x34#8 (regField dst) 0 0 imm
  | .div32X dst src => basicSlot 0x3c#8 (regField dst) (regField src) 0 0
  | .or32K dst imm => basicSlot 0x44#8 (regField dst) 0 0 imm
  | .or32X dst src => basicSlot 0x4c#8 (regField dst) (regField src) 0 0
  | .and32K dst imm => basicSlot 0x54#8 (regField dst) 0 0 imm
  | .and32X dst src => basicSlot 0x5c#8 (regField dst) (regField src) 0 0
  | .lsh32K dst imm => basicSlot 0x64#8 (regField dst) 0 0 imm
  | .lsh32X dst src => basicSlot 0x6c#8 (regField dst) (regField src) 0 0
  | .rsh32K dst imm => basicSlot 0x74#8 (regField dst) 0 0 imm
  | .rsh32X dst src => basicSlot 0x7c#8 (regField dst) (regField src) 0 0
  | .neg32 dst => basicSlot 0x84#8 (regField dst) 0 0 0
  | .mod32K dst imm => basicSlot 0x94#8 (regField dst) 0 0 imm
  | .mod32X dst src => basicSlot 0x9c#8 (regField dst) (regField src) 0 0
  | .xor32K dst imm => basicSlot 0xa4#8 (regField dst) 0 0 imm
  | .xor32X dst src => basicSlot 0xac#8 (regField dst) (regField src) 0 0
  | .mov32K dst imm => basicSlot 0xb4#8 (regField dst) 0 0 imm
  | .mov32X dst src => basicSlot 0xbc#8 (regField dst) (regField src) 0 0
  | .arsh32K dst imm => basicSlot 0xc4#8 (regField dst) 0 0 imm
  | .arsh32X dst src => basicSlot 0xcc#8 (regField dst) (regField src) 0 0
  | .add64K dst imm => basicSlot 0x07#8 (regField dst) 0 0 imm
  | .add64X dst src => basicSlot 0x0f#8 (regField dst) (regField src) 0 0
  | .sub64K dst imm => basicSlot 0x17#8 (regField dst) 0 0 imm
  | .sub64X dst src => basicSlot 0x1f#8 (regField dst) (regField src) 0 0
  | .mul64K dst imm => basicSlot 0x27#8 (regField dst) 0 0 imm
  | .mul64X dst src => basicSlot 0x2f#8 (regField dst) (regField src) 0 0
  | .div64K dst imm => basicSlot 0x37#8 (regField dst) 0 0 imm
  | .div64X dst src => basicSlot 0x3f#8 (regField dst) (regField src) 0 0
  | .or64K dst imm => basicSlot 0x47#8 (regField dst) 0 0 imm
  | .or64X dst src => basicSlot 0x4f#8 (regField dst) (regField src) 0 0
  | .and64K dst imm => basicSlot 0x57#8 (regField dst) 0 0 imm
  | .and64X dst src => basicSlot 0x5f#8 (regField dst) (regField src) 0 0
  | .lsh64K dst imm => basicSlot 0x67#8 (regField dst) 0 0 imm
  | .lsh64X dst src => basicSlot 0x6f#8 (regField dst) (regField src) 0 0
  | .rsh64K dst imm => basicSlot 0x77#8 (regField dst) 0 0 imm
  | .rsh64X dst src => basicSlot 0x7f#8 (regField dst) (regField src) 0 0
  | .neg64 dst => basicSlot 0x87#8 (regField dst) 0 0 0
  | .mod64K dst imm => basicSlot 0x97#8 (regField dst) 0 0 imm
  | .mod64X dst src => basicSlot 0x9f#8 (regField dst) (regField src) 0 0
  | .xor64K dst imm => basicSlot 0xa7#8 (regField dst) 0 0 imm
  | .xor64X dst src => basicSlot 0xaf#8 (regField dst) (regField src) 0 0
  | .mov64K dst imm => basicSlot 0xb7#8 (regField dst) 0 0 imm
  | .mov64X dst src => basicSlot 0xbf#8 (regField dst) (regField src) 0 0
  | .arsh64K dst imm => basicSlot 0xc7#8 (regField dst) 0 0 imm
  | .arsh64X dst src => basicSlot 0xcf#8 (regField dst) (regField src) 0 0
  | .le16 dst => basicSlot 0xd4#8 (regField dst) 0 0 0x10
  | .le32 dst => basicSlot 0xd4#8 (regField dst) 0 0 0x20
  | .le64 dst => basicSlot 0xd4#8 (regField dst) 0 0 0x40
  | .be16 dst => basicSlot 0xdc#8 (regField dst) 0 0 0x10
  | .be32 dst => basicSlot 0xdc#8 (regField dst) 0 0 0x20
  | .be64 dst => basicSlot 0xdc#8 (regField dst) 0 0 0x40
  | .ja off => basicSlot 0x05#8 0 0 off 0
  | .jeq64K dst imm off => basicSlot 0x15#8 (regField dst) 0 off imm
  | .jeq64X dst src off => basicSlot 0x1d#8 (regField dst) (regField src) off 0
  | .jgt64K dst imm off => basicSlot 0x25#8 (regField dst) 0 off imm
  | .jgt64X dst src off => basicSlot 0x2d#8 (regField dst) (regField src) off 0
  | .jge64K dst imm off => basicSlot 0x35#8 (regField dst) 0 off imm
  | .jge64X dst src off => basicSlot 0x3d#8 (regField dst) (regField src) off 0
  | .jset64K dst imm off => basicSlot 0x45#8 (regField dst) 0 off imm
  | .jset64X dst src off => basicSlot 0x4d#8 (regField dst) (regField src) off 0
  | .jne64K dst imm off => basicSlot 0x55#8 (regField dst) 0 off imm
  | .jne64X dst src off => basicSlot 0x5d#8 (regField dst) (regField src) off 0
  | .jsgt64K dst imm off => basicSlot 0x65#8 (regField dst) 0 off imm
  | .jsgt64X dst src off => basicSlot 0x6d#8 (regField dst) (regField src) off 0
  | .jsge64K dst imm off => basicSlot 0x75#8 (regField dst) 0 off imm
  | .jsge64X dst src off => basicSlot 0x7d#8 (regField dst) (regField src) off 0
  | .jlt64K dst imm off => basicSlot 0xa5#8 (regField dst) 0 off imm
  | .jlt64X dst src off => basicSlot 0xad#8 (regField dst) (regField src) off 0
  | .jle64K dst imm off => basicSlot 0xb5#8 (regField dst) 0 off imm
  | .jle64X dst src off => basicSlot 0xbd#8 (regField dst) (regField src) off 0
  | .jslt64K dst imm off => basicSlot 0xc5#8 (regField dst) 0 off imm
  | .jslt64X dst src off => basicSlot 0xcd#8 (regField dst) (regField src) off 0
  | .jsle64K dst imm off => basicSlot 0xd5#8 (regField dst) 0 off imm
  | .jsle64X dst src off => basicSlot 0xdd#8 (regField dst) (regField src) off 0
  | .jeq32K dst imm off => basicSlot 0x16#8 (regField dst) 0 off imm
  | .jeq32X dst src off => basicSlot 0x1e#8 (regField dst) (regField src) off 0
  | .jgt32K dst imm off => basicSlot 0x26#8 (regField dst) 0 off imm
  | .jgt32X dst src off => basicSlot 0x2e#8 (regField dst) (regField src) off 0
  | .jge32K dst imm off => basicSlot 0x36#8 (regField dst) 0 off imm
  | .jge32X dst src off => basicSlot 0x3e#8 (regField dst) (regField src) off 0
  | .jset32K dst imm off => basicSlot 0x46#8 (regField dst) 0 off imm
  | .jset32X dst src off => basicSlot 0x4e#8 (regField dst) (regField src) off 0
  | .jne32K dst imm off => basicSlot 0x56#8 (regField dst) 0 off imm
  | .jne32X dst src off => basicSlot 0x5e#8 (regField dst) (regField src) off 0
  | .jsgt32K dst imm off => basicSlot 0x66#8 (regField dst) 0 off imm
  | .jsgt32X dst src off => basicSlot 0x6e#8 (regField dst) (regField src) off 0
  | .jsge32K dst imm off => basicSlot 0x76#8 (regField dst) 0 off imm
  | .jsge32X dst src off => basicSlot 0x7e#8 (regField dst) (regField src) off 0
  | .jlt32K dst imm off => basicSlot 0xa6#8 (regField dst) 0 off imm
  | .jlt32X dst src off => basicSlot 0xae#8 (regField dst) (regField src) off 0
  | .jle32K dst imm off => basicSlot 0xb6#8 (regField dst) 0 off imm
  | .jle32X dst src off => basicSlot 0xbe#8 (regField dst) (regField src) off 0
  | .jslt32K dst imm off => basicSlot 0xc6#8 (regField dst) 0 off imm
  | .jslt32X dst src off => basicSlot 0xce#8 (regField dst) (regField src) off 0
  | .jsle32K dst imm off => basicSlot 0xd6#8 (regField dst) 0 off imm
  | .jsle32X dst src off => basicSlot 0xde#8 (regField dst) (regField src) off 0
  | .callHelper id => basicSlot 0x85#8 0 0 0 id
  | .callLocal off imm => basicSlot 0x85#8 0 1 off imm
  | .callRuntime id => basicSlot 0x85#8 0 2 0 id
  | .exit => basicSlot 0x95#8 0 0 0 0
  | .ldxB dst src off => basicSlot 0x71#8 (regField dst) (regField src) off 0
  | .ldxH dst src off => basicSlot 0x69#8 (regField dst) (regField src) off 0
  | .ldxW dst src off => basicSlot 0x61#8 (regField dst) (regField src) off 0
  | .ldxDW dst src off => basicSlot 0x79#8 (regField dst) (regField src) off 0
  | .stB dst off imm => basicSlot 0x72#8 (regField dst) 0 off imm
  | .stH dst off imm => basicSlot 0x6a#8 (regField dst) 0 off imm
  | .stW dst off imm => basicSlot 0x62#8 (regField dst) 0 off imm
  | .stDW dst off imm => basicSlot 0x7a#8 (regField dst) 0 off imm
  | .stxB dst off src => basicSlot 0x73#8 (regField dst) (regField src) off 0
  | .stxH dst off src => basicSlot 0x6b#8 (regField dst) (regField src) off 0
  | .stxW dst off src => basicSlot 0x63#8 (regField dst) (regField src) off 0
  | .stxDW dst off src => basicSlot 0x7b#8 (regField dst) (regField src) off 0
  | .atomicAdd32 dst off src => basicSlot 0xc3#8 (regField dst) (regField src) off 0x00
  | .atomicFetchAdd32 dst off src => basicSlot 0xc3#8 (regField dst) (regField src) off 0x01
  | .atomicOr32 dst off src => basicSlot 0xc3#8 (regField dst) (regField src) off 0x40
  | .atomicFetchOr32 dst off src => basicSlot 0xc3#8 (regField dst) (regField src) off 0x41
  | .atomicAnd32 dst off src => basicSlot 0xc3#8 (regField dst) (regField src) off 0x50
  | .atomicFetchAnd32 dst off src => basicSlot 0xc3#8 (regField dst) (regField src) off 0x51
  | .atomicXor32 dst off src => basicSlot 0xc3#8 (regField dst) (regField src) off 0xa0
  | .atomicFetchXor32 dst off src => basicSlot 0xc3#8 (regField dst) (regField src) off 0xa1
  | .atomicXchg32 dst off src => basicSlot 0xc3#8 (regField dst) (regField src) off 0xe1
  | .atomicCmpxchg32 dst off src => basicSlot 0xc3#8 (regField dst) (regField src) off 0xf1
  | .atomicAdd64 dst off src => basicSlot 0xdb#8 (regField dst) (regField src) off 0x00
  | .atomicFetchAdd64 dst off src => basicSlot 0xdb#8 (regField dst) (regField src) off 0x01
  | .atomicOr64 dst off src => basicSlot 0xdb#8 (regField dst) (regField src) off 0x40
  | .atomicFetchOr64 dst off src => basicSlot 0xdb#8 (regField dst) (regField src) off 0x41
  | .atomicAnd64 dst off src => basicSlot 0xdb#8 (regField dst) (regField src) off 0x50
  | .atomicFetchAnd64 dst off src => basicSlot 0xdb#8 (regField dst) (regField src) off 0x51
  | .atomicXor64 dst off src => basicSlot 0xdb#8 (regField dst) (regField src) off 0xa0
  | .atomicFetchXor64 dst off src => basicSlot 0xdb#8 (regField dst) (regField src) off 0xa1
  | .atomicXchg64 dst off src => basicSlot 0xdb#8 (regField dst) (regField src) off 0xe1
  | .atomicCmpxchg64 dst off src => basicSlot 0xdb#8 (regField dst) (regField src) off 0xf1
  | .ldImm64 dst imm nextImm => wideSlots 0x18#8 (regField dst) 0 imm nextImm
  | .ldMapFd dst imm => wideSlots 0x18#8 (regField dst) 1 imm 0
  | .ldMapFdValue dst imm nextImm => wideSlots 0x18#8 (regField dst) 2 imm nextImm
  | .ldVarAddr dst imm => wideSlots 0x18#8 (regField dst) 3 imm 0
  | .ldCodeAddr dst imm => wideSlots 0x18#8 (regField dst) 4 imm 0
  | .ldMapIdx dst imm => wideSlots 0x18#8 (regField dst) 5 imm 0
  | .ldMapIdxValue dst imm nextImm => wideSlots 0x18#8 (regField dst) 6 imm nextImm
  | .ldAbsW dst src off imm => basicSlot 0x20#8 dst src off imm
  | .ldAbsH dst src off imm => basicSlot 0x28#8 dst src off imm
  | .ldAbsB dst src off imm => basicSlot 0x30#8 dst src off imm
  | .ldAbsDW dst src off imm => basicSlot 0x38#8 dst src off imm
  | .ldIndW dst src off imm => basicSlot 0x40#8 dst src off imm
  | .ldIndH dst src off imm => basicSlot 0x48#8 dst src off imm
  | .ldIndB dst src off imm => basicSlot 0x50#8 dst src off imm
  | .ldIndDW dst src off imm => basicSlot 0x58#8 dst src off imm
  | .pseudoSlot imm => basicSlot 0x00#8 0 0 0 imm

/-- How many slots an instruction occupies (R92): two for opcode 0x18, else one. -/
def Instr.slots (i : Instr) : Nat := (encode i).length

/-! ### Byte images (R86) -/

/-- The `n` low bytes of a number, least significant first. -/
def natBytes : Nat → Nat → List Byte
  | 0, _ => []
  | n + 1, v => BitVec.ofNat 8 v :: natBytes n (v / 256)

/-- The number whose bytes are given, least significant first. -/
def natOfBytes : List Byte → Nat
  | [] => 0
  | b :: bs => b.toNat + 256 * natOfBytes bs

/-- The byte image of a slot on a little-endian host (R86): opcode, register nibbles with `dst` low, offset, imm. -/
def slotImage (w : Slot) : List Byte := natBytes 8 w.toNat

/-- The program that a byte image gives on a little-endian host (R86): eight bytes a slot, low byte first. An image that
is no whole number of slots is none. -/
def slotsOfImage : List Byte → Option (List Slot)
  | [] => some []
  | b0 :: b1 :: b2 :: b3 :: b4 :: b5 :: b6 :: b7 :: rest =>
    (slotsOfImage rest).map (BitVec.ofNat 64 (natOfBytes [b0, b1, b2, b3, b4, b5, b6, b7]) :: ·)
  | _ => none

/-- The program that a byte image gives (R86). For a big-endian host the spec defines no image. -/
def programOfImage (order : ByteOrder) (image : List Byte) : Option (List Slot) :=
  match order with
  | .little => slotsOfImage image
  | .big => none

end Sys2Proof
end

