-- ==== Sys2Proof/Machine/State.lean ====
section
/-! DEFINITION. The state of the machine (R20, R32, R35, R36), the faults (R340, R349) and the state at entry (R371).
The parameters of R6 are held in the state too, in the field `cfg`, which no instruction changes. -/

namespace Sys2Proof.Machine

/-- The kinds of a `MemFault` (R343). -/
inductive AccessKind where
  /-- The address is not aligned (R56). -/
  | align
  /-- A load whose bytes lie in no one readable region (R57). -/
  | read
  /-- A store whose bytes lie in no one writable region (R57). -/
  | write
  /-- An atomic operation whose bytes lie in no one readable and writable region (R57). -/
  | atomic
  deriving DecidableEq, Repr

/-- The faults of R349. Each is terminal and precise (R340): the instruction at `pc` has changed nothing. All of them
are the spec's own, so each is faithful to it; the source describes no fault at all, and a model that stops where a
runtime goes on is safe. -/
inductive Fault where
  /-- Code 1 (R341): raised by the fetch of a slot that is no well-formed instruction, by the eight legacy opcodes and
  the pseudo slot, by an unsupported optional form, and by a local call with a non-zero unused `offset`. Safe. -/
  | illegalInstruction (pc : Int) (insn : Slot) (reason : IllegalReason)
  /-- Code 2 (R342): raised by the fetch when the pc lies outside the program. Safe. -/
  | pcOutOfRange (pc : Int)
  /-- Code 3 (R343): raised by loads, stores and atomic operations. Safe. -/
  | memFault (pc : Int) (addr : Word) (width : Nat) (kind : AccessKind)
  /-- Code 4 (R345): raised by an instruction that reads a register without a value, under
  `UNWRITTEN_READ = fault`. Safe. -/
  | unwrittenRegister (pc : Int) (reg : RegNum)
  /-- Code 5 (R346): raised by a call of a helper or runtime function whose number is in no table. Safe. -/
  | unknownFunction (pc : Int) (space : CallSpace) (id : BitVec 32)
  /-- Code 6 (R347): raised by a local call that would make too many frames. Safe. -/
  | callDepthExceeded (pc : Int)
  /-- Code 7 (R348): raised by a call of a function that is described as able to fault, and does. Safe. -/
  | helperFault (pc : Int) (space : CallSpace) (id : BitVec 32)
  /-- Code 8 (R344): raised by a shift by the operand width or more, under `SHIFT_OVERWIDTH = refuse`. Safe. -/
  | refusedShift (pc : Int)
  deriving DecidableEq, Repr

/-- The reasons to give an instruction no meaning. Every instruction of the table has one. -/
inductive Refusal where
  /-- Raised by an arm of `exec` that has no meaning yet: no arm has. Safe. -/
  | notModelled (mnemonic : String)
  deriving DecidableEq, Repr

/-- A register: its 64-bit value, and the bit "written" that the spec keeps beside it (R35). A register that holds no value
has `written = false`; what its `value` then is nothing reads (log 5). -/
structure Reg where
  value : Word
  written : Bool
  deriving DecidableEq, Repr

/-- A register that holds no value (R35). -/
def Reg.none : Reg := ⟨0, false⟩

/-- A register that holds the value `v`. -/
def Reg.of (v : Word) : Reg := ⟨v, true⟩

/-- A record of the hidden call stack (R32): where to return, and the caller's R6 to R9 and R10. -/
structure Frame where
  retPc : Int
  s6 : Reg
  s7 : Reg
  s8 : Reg
  s9 : Reg
  s10 : Reg
  deriving DecidableEq, Repr

/-- Data memory (R50): the bytes that something has stored or the host has placed, as address and byte. An address that
is not listed holds no known value: a load finds `Config.freeByte` there (R263). -/
abbrev Memory := List Host.Cell

/-- The addresses of a list rise strictly from `lo` on and lie in the 64-bit address space (R50). -/
def Memory.sortedFrom (lo : Nat) : Memory → Bool
  | [] => true
  | (a, _) :: rest => lo ≤ a && a < 2 ^ 64 && Memory.sortedFrom (a + 1) rest

/-- The canonical form of data memory: addresses strictly rising, all inside the address space. -/
def Memory.wf (m : Memory) : Bool := Memory.sortedFrom 0 m

/-- How far a run has come (R340, R377). -/
inductive Status where
  /-- No end and no fault yet. -/
  | running
  /-- EXIT has ended the run with this result (R377). -/
  | ended (result : Word)
  /-- A fault has been recorded (R340); the rest of the state is what it was before the faulting instruction. -/
  | faulted (fault : Fault)
  deriving DecidableEq, Repr

/-- What the environment does at one step of the program (R60, R67): the bytes of shared regions it replaces before the
step, and the values that bytes of shared regions have at some moment during the step. -/
structure EnvMove where
  between : List (Word × Byte)
  during : List (Word × Byte)
  deriving DecidableEq, Repr

/-- The state of a run. -/
structure State where
  /-- The registers x[0] to x[10], each with its "written" bit (R21, R35). -/
  x : Vector Reg 11
  /-- The program counter: the index of a slot (R26). A jump may make it negative; the next fetch faults (R342). -/
  pc : Int
  /-- Data memory (R50); the stack is one region of it (R28). -/
  mem : Memory
  /-- The hidden call stack, innermost record first (R32). -/
  frames : List Frame
  /-- Whether the run goes on, has ended or has faulted (R36, R340, R377). -/
  status : Status
  /-- The moves the environment will make, one for each step (R67). The model's own: an input (log 9). -/
  env : List EnvMove
  /-- The values that bytes of shared regions have at some moment during this step (R60). The model's own (log 10). -/
  during : List (Word × Byte)
  /-- How many free values the run has drawn. The model's own (log 5, 7). -/
  fresh : Nat
  /-- The parameters of R6, the program text among them (R20, R33). -/
  cfg : Config
  deriving DecidableEq, Repr

/-- Register Ri at entry (R36, R371): R10 holds `STACK_TOP`, R1 to R5 the arguments as far as there are any, and the
others hold no value. -/
def entryReg (c : Config) (i : Nat) : Reg :=
  if i = 10 then Reg.of c.stackTop
  else if 1 ≤ i ∧ i ≤ 5 then
    match c.entryArgs[i - 1]? with
    | some v => Reg.of v
    | none => Reg.none
  else Reg.none

/-- The state in which a run of the program of `c` begins (R36, R371), in data memory `m` as the host left it and an
environment that will make the moves `env`. It is a first run: its count of free values starts at 0 (log 5, 7), and
`nextRun` goes on past the count of the run before. -/
def State.entry (c : Config) (m : Memory) (env : List EnvMove) : State where
  x := #v[entryReg c 0, entryReg c 1, entryReg c 2, entryReg c 3, entryReg c 4, entryReg c 5, entryReg c 6,
    entryReg c 7, entryReg c 8, entryReg c 9, entryReg c 10]
  pc := 0
  mem := m
  frames := []
  status := .running
  env := env
  during := []
  fresh := 0
  cfg := c

/-- The machine right after reset, which for this machine is entry (R370): the entry state under the parameters
`Config.atReset`, with nothing in memory and an environment that does nothing. -/
def State.reset : State := State.entry Config.atReset [] []

end Sys2Proof.Machine
end

