-- ==== Sys2Proof/Machine/Flags.lean ====
section
/-! DEFINITION. The machine has no flags, no condition codes and no status register (R29, R30): no instruction
computes a flag. What other machines do with flags is done here by the conditions of the conditional jumps, each
comparing two operands inside one instruction (R192). -/

namespace Sys2Proof.Machine

/-- The conditions of the conditional jumps, in the order of the code table (R192). -/
inductive Cond where
  | eq
  | gt
  | ge
  | set
  | ne
  | sgt
  | sge
  | lt
  | le
  | slt
  | sle
  deriving DecidableEq, Repr

/-- Whether a condition holds of two operands of width `w` (R192, R222): bit patterns for `eq`, `ne` and `set`, unsigned
numbers for `gt`, `ge`, `lt`, `le`, signed numbers for `sgt`, `sge`, `slt`, `sle`. -/
def condHolds (c : Cond) {w : Nat} (a b : BitVec w) : Bool :=
  match c with
  | .eq => a == b
  | .gt => b.toNat < a.toNat
  | .ge => b.toNat ≤ a.toNat
  | .set => a &&& b != 0
  | .ne => a != b
  | .sgt => b.toInt < a.toInt
  | .sge => b.toInt ≤ a.toInt
  | .lt => a.toNat < b.toNat
  | .le => a.toNat ≤ b.toNat
  | .slt => a.toInt < b.toInt
  | .sle => a.toInt ≤ b.toInt

end Sys2Proof.Machine
end

