-- ==== Sys2Proof/Machine/Operands.lean ====
section
/-! DEFINITION. The operand forms (R54, R55, R93): width views of a register, immediates, effective addresses, and the
bytes of a value in either byte order (R52). -/

namespace Sys2Proof.Machine

/-- The 32-bit view `w(i)` of a register value (R8, R25). -/
def lo32 (v : Word) : BitVec 32 := v.setWidth 32

/-- A 32-bit result in a 64-bit register: the upper 32 bits zero (R120, R261). -/
def zext64 (v : BitVec 32) : Word := v.setWidth 64

/-- `imm` as the operand of a 64-bit operation: sign-extended (R93). -/
def sext64 (imm : BitVec 32) : Word := imm.signExtend 64

/-- `offset` as a number of slots: `s16(offset)` (R191). -/
def offsetSlots (off : BitVec 16) : Int := off.toInt

/-- The effective address of a load, store or atomic operation, modulo 2^64 (R55). -/
def effAddr (base : Word) (off : BitVec 16) : Word := base + off.signExtend 64

/-- The `n` low bytes of a value, least significant first. -/
def lowBytes : Nat → Word → List Byte
  | 0, _ => []
  | n + 1, v => v.setWidth 8 :: lowBytes n (v >>> 8)

/-- The value of bytes given least significant first, zero-extended (R261). -/
def wordOfBytes : List Byte → Word
  | [] => 0
  | b :: bs => b.setWidth 64 ||| wordOfBytes bs <<< 8

/-- Bytes between the order of memory (lowest address first) and least significant first (R52): the same way round on
a little-endian host, reversed on a big-endian one. The conversion is its own inverse. -/
def inOrder (order : ByteOrder) (bytes : List Byte) : List Byte :=
  match order with
  | .little => bytes
  | .big => bytes.reverse

/-- The low `8 * n` bits of a value, zero-extended (R54, R281). -/
def truncTo (n : Nat) (v : Word) : Word := wordOfBytes (lowBytes n v)

/-- `bswapN` on the low `n` bytes of a value, zero-extended (R181, R182). -/
def swapBytes (n : Nat) (v : Word) : Word := wordOfBytes (lowBytes n v).reverse

/-- The conversion of the low `n` bytes between the byte order of the host and `target` (R181): the identity when they
agree, else a byte reversal; zero-extended (R182). -/
def convertOrder (target host : ByteOrder) (n : Nat) (v : Word) : Word :=
  if host = target then truncTo n v else swapBytes n v

end Sys2Proof.Machine
end

