-- ==== Sys2Proof/Machine/Ops.lean ====
section
/-! DEFINITION. The shared operations over registers, memory, the pc and the call stack. A meaning is a short
composition of these. A computation that can fault answers `Except Fault State`; `finish` turns it into an outcome, so
a fault carries no changed state: faults are precise (R340). Taking a fault is `.error`; there is no handler, no saved
state and no return from one (R353, R354). -/

namespace Sys2Proof.Machine

/-! ### Outcomes and faults (R340, R349) -/

/-- The outcome of a computation: its next state, or its fault (R340). -/
def finish (r : Except Fault State) : Host.Outcome State Fault Refusal :=
  match r with
  | .ok s => .next s
  | .error f => .fault f

/-- The cause code of a fault (R349). -/
def faultCode (f : Fault) : Nat :=
  match f with
  | .illegalInstruction _ _ _ => 1
  | .pcOutOfRange _ => 2
  | .memFault _ _ _ _ => 3
  | .unwrittenRegister _ _ => 4
  | .unknownFunction _ _ _ => 5
  | .callDepthExceeded _ => 6
  | .helperFault _ _ _ => 7
  | .refusedShift _ => 8

/-- The 64 bits of the slot at the pc, as an `IllegalInstruction` records them (R341). Outside the program, where no fetch
reaches, 0. -/
def currentSlot (s : State) : Slot := (s.cfg.program[s.pc.toNat]?).getD 0

/-- The fault of an instruction at the pc that is not well-formed (R341). -/
def illegal (s : State) (why : IllegalReason) : Fault := .illegalInstruction s.pc (currentSlot s) why

/-- Raise a fault unless a condition holds. -/
def require (ok : Bool) (f : Fault) : Except Fault Unit := if ok then .ok () else .error f

/-! ### Registers -/

/-- Write a value to a register, all 64 bits of it (R25); it then holds a value. -/
def setReg (s : State) (r : RegNum) (v : Word) : State := { s with x := s.x.set r (Reg.of v) }

/-- Make a register hold no value (R24, R35). -/
def dropReg (s : State) (r : RegNum) : State := { s with x := s.x.set r Reg.none }

/-- R1 to R5 hold no value: what a call that returns leaves of the scratch registers (R24, R248). -/
def dropArgs (s : State) : State := dropReg (dropReg (dropReg (dropReg (dropReg s 1) 2) 3) 4) 5

/-- An instruction that would write R10 is not well-formed (R23, R341). -/
def guardWrite (r : RegNum) (s : State) : Except Fault Unit :=
  require (writableReg r) (illegal s .badRegister)

/-- Whether reading a register raises no fault (R35). -/
def canRead (s : State) (r : RegNum) : Bool :=
  s.x[r].written || s.cfg.unwrittenRead == .any

/-- The register numbers in rising order. -/
def allRegs : List RegNum := [0, 1, 2, 3, 4, 5, 6, 7, 8, 9, 10]

/-- The lowest-numbered register among `rs` that cannot be read (R352). -/
def firstUnreadable (rs : List RegNum) (s : State) : Option RegNum :=
  allRegs.find? fun r => rs.contains r && !canRead s r

/-- An instruction reads the registers `rs`: the fault for the lowest-numbered one without a value (R345, R352). -/
def guardReads (rs : List RegNum) (s : State) : Except Fault Unit :=
  match firstUnreadable rs s with
  | none => .ok ()
  | some r => .error (.unwrittenRegister s.pc r)

/-- The value that one read of a register returns, and the state after it: the register's value if it holds one, else
a free value drawn afresh (R35). -/
def draw (s : State) (r : RegNum) : Word × State :=
  if s.x[r].written then (s.x[r].value, s) else (Config.freeWord s.fresh, { s with fresh := s.fresh + 1 })

/-- The values that reads of several registers return, in order, and the state after them. -/
def drawAll (s : State) : List RegNum → List Word × State
  | [] => ([], s)
  | r :: rs => ((draw s r).1 :: (drawAll (draw s r).2 rs).1, (drawAll (draw s r).2 rs).2)

/-- Read one register. -/
def read1 (r : RegNum) (s : State) : Except Fault (Word × State) := do
  guardReads [r] s
  .ok (draw s r)

/-- Read two registers, the first before the second; a fault names the lower-numbered (R352). -/
def read2 (r q : RegNum) (s : State) : Except Fault (Word × Word × State) := do
  guardReads [r, q] s
  .ok ((draw s r).1, (draw (draw s r).2 q).1, (draw (draw s r).2 q).2)

/-- Read three registers, in order. -/
def read3 (r q p : RegNum) (s : State) : Except Fault (Word × Word × Word × State) := do
  guardReads [r, q, p] s
  .ok ((draw s r).1, (draw (draw s r).2 q).1, (draw (draw (draw s r).2 q).2 p).1,
    (draw (draw (draw s r).2 q).2 p).2)

/-- Read the registers `rs`, in order. -/
def readRegs (rs : List RegNum) (s : State) : Except Fault (List Word × State) := do
  guardReads rs s
  .ok (drawAll s rs)

/-! ### Program counter (R27) -/

/-- Move the pc past an instruction of `n` slots. -/
def advance (s : State) (n : Nat) : State := { s with pc := s.pc + n }

/-- A jump by a displacement in slots, relative to the slot after it (R191), if it is taken. The target is not
checked (R193). -/
def branch (s : State) (taken : Bool) (disp : Int) : State :=
  { s with pc := s.pc + 1 + if taken then disp else 0 }

/-! ### The memory map (R56, R57) -/

/-- The `n` bytes at `a` lie in the region; the sum does not wrap (R57). -/
def inRegion (r : Region) (a n : Nat) : Bool := r.base ≤ a && a + n ≤ r.base + r.size

/-- The region permits an access of the kind (R57): an atomic operation needs both permissions. -/
def permits (r : Region) (k : AccessKind) : Bool :=
  match k with
  | .align => true
  | .read => r.readable
  | .write => r.writable
  | .atomic => r.readable && r.writable

/-- `Admit(addr, n, kind)` of R57. An access whose last byte would lie beyond address 2^64 - 1 is never
admitted (R52). -/
def admits (c : Config) (a n : Nat) (k : AccessKind) : Bool :=
  a + n ≤ 2 ^ 64 && c.regions.any fun r => inRegion r a n && permits r k

/-- `Aligned(addr, n)` of R56: an atomic operation always needs natural alignment, a regular access under
`STRICT_ALIGN`. -/
def aligned (c : Config) (a n : Nat) (k : AccessKind) : Bool :=
  a % n == 0 || (k != .atomic && !c.strictAlign)

/-- The checks of an access, alignment first (R263, R282, R343). -/
def checkAccess (s : State) (a : Word) (n : Nat) (k : AccessKind) : Except Fault Unit := do
  require (aligned s.cfg a.toNat n k) (.memFault s.pc a n .align)
  require (admits s.cfg a.toNat n k) (.memFault s.pc a n k)

/-- The byte at an address belongs to a region that is shared with the environment (R57, R67). -/
def isShared (c : Config) (a : Nat) : Bool := c.regions.any fun r => r.shared && inRegion r a 1

/-! ### Data memory (R50, R52) -/

/-- What is stored at an address, if anything is. -/
def lookupByte (m : Memory) (a : Nat) : Option Byte := List.lookup a m

/-- The byte a read finds at an address: what is stored there, else a free byte, the same at every read (R263). -/
def byteAt (m : Memory) (a : Nat) : Byte := (lookupByte m a).getD (Config.freeByte a)

/-- Store one byte, keeping the addresses strictly rising. -/
def storeByte (a : Nat) (b : Byte) : Memory → Memory
  | [] => [(a, b)]
  | (k, v) :: rest =>
    if a < k then (a, b) :: (k, v) :: rest
    else if a = k then (a, b) :: rest
    else (k, v) :: storeByte a b rest

/-- Store bytes at rising addresses. -/
def storeBytes (m : Memory) (a : Nat) : List Byte → Memory
  | [] => m
  | b :: bs => storeBytes (storeByte a b m) (a + 1) bs

/-- Store bytes one at a time, each at its own address, in the order given. -/
def storeEach (m : Memory) : List (Word × Byte) → Memory
  | [] => m
  | (a, b) :: rest => storeEach (storeByte a.toNat b m) rest

/-- The `n` bytes at an address, lowest address first. -/
def bytesAt (m : Memory) (a : Nat) : Nat → List Byte
  | 0 => []
  | n + 1 => byteAt m a :: bytesAt m (a + 1) n

/-- The byte that a regular load may find at an address (R60): of a shared byte, the value it had at some moment during
the step, if the environment gave it one; else what memory holds. -/
def tornByteAt (s : State) (a : Nat) : Byte :=
  if isShared s.cfg a then (s.during.lookup (BitVec.ofNat 64 a)).getD (byteAt s.mem a) else byteAt s.mem a

/-- The `n` bytes that a regular load may find at an address, each for itself (R60). -/
def tornBytesAt (s : State) (a : Nat) : Nat → List Byte
  | 0 => []
  | n + 1 => tornByteAt s a :: tornBytesAt s (a + 1) n

/-- The value of `n` bytes in one indivisible read (R52, R59). -/
def readValue (s : State) (a n : Nat) : Word := wordOfBytes (inOrder s.cfg.hostEndian (bytesAt s.mem a n))

/-- The value of a regular load of `n` bytes (R52, R60): indivisible when `REGULAR_ACCESS_ATOMIC` holds and the address is
naturally aligned, else byte by byte. -/
def loadValue (s : State) (a n : Nat) : Word :=
  if s.cfg.regularAccessAtomic && a % n == 0 then readValue s a n
  else wordOfBytes (inOrder s.cfg.hostEndian (tornBytesAt s a n))

/-- Write the low `8 * n` bits of a value to the `n` bytes at an address (R52). -/
def writeValue (s : State) (a n : Nat) (v : Word) : State :=
  { s with mem := storeBytes s.mem a (inOrder s.cfg.hostEndian (lowBytes n v)) }

/-! ### Arithmetic (R120 to R123, R150 to R153) -/

/-- The two-operand operations of classes BPF_ALU and BPF_ALU64, but for BPF_MOV. -/
inductive AluOp where
  | add
  | sub
  | mul
  | div
  | or
  | and
  | lsh
  | rsh
  | mod
  | xor
  | arsh
  deriving DecidableEq, Repr

/-- The quotient (R122, R152): zero for a zero divisor; floor on unsigned, truncation on signed operands. -/
def divide (mode : DivMode) {w : Nat} (a b : BitVec w) : BitVec w :=
  if b = 0 then 0
  else match mode with
    | .unsigned => BitVec.ofNat w (a.toNat / b.toNat)
    | .signed => BitVec.ofInt w (a.toInt.tdiv b.toInt)

/-- The remainder (R122, R152): the first operand itself for a zero divisor, else `a - n * trunc(a / n)`. -/
def modulo (mode : DivMode) {w : Nat} (a b : BitVec w) : BitVec w :=
  if b = 0 then a
  else match mode with
    | .unsigned => BitVec.ofNat w (a.toNat - b.toNat * (a.toNat / b.toNat))
    | .signed => BitVec.ofInt w (a.toInt - b.toInt * a.toInt.tdiv b.toInt)

/-- The count of a shift (R123, R153): the source operand modulo the width, or none where it is refused. -/
def shiftCount (mode : ShiftMode) {w : Nat} (b : BitVec w) : Option Nat :=
  match mode with
  | .mask => some (b.toNat % w)
  | .refuse => if b.toNat < w then some b.toNat else none

/-- The result of an operation on operands of width `w`; none for a shift that is refused (R344). -/
def aluResult (c : Config) (op : AluOp) {w : Nat} (a b : BitVec w) : Option (BitVec w) :=
  match op with
  | .add => some (a + b)
  | .sub => some (a - b)
  | .mul => some (a * b)
  | .div => some (divide c.divmodSigned a b)
  | .or => some (a ||| b)
  | .and => some (a &&& b)
  | .lsh => (shiftCount c.shiftOverwidth b).map (a <<< ·)
  | .rsh => (shiftCount c.shiftOverwidth b).map (a >>> ·)
  | .mod => some (modulo c.divmodSigned a b)
  | .xor => some (a ^^^ b)
  | .arsh => (shiftCount c.shiftOverwidth b).map a.sshiftRight

/-- The result of an operation at the pc of a state, or the fault of a refused shift (R344). -/
def aluOrRefuse (s : State) (op : AluOp) {w : Nat} (a b : BitVec w) : Except Fault (BitVec w) :=
  match aluResult s.cfg op a b with
  | some r => .ok r
  | none => .error (.refusedShift s.pc)

/-- An operation of class BPF_ALU with the immediate (R120, R124). -/
def alu32K (op : AluOp) (dst : RegNum) (imm : BitVec 32) (s : State) : Host.Outcome State Fault Refusal := finish do
  guardWrite dst s
  let (a, t) ← read1 dst s
  let r ← aluOrRefuse t op (lo32 a) imm
  .ok (advance (setReg t dst (zext64 r)) 1)

/-- An operation of class BPF_ALU with a register (R120, R124). -/
def alu32X (op : AluOp) (dst src : RegNum) (s : State) : Host.Outcome State Fault Refusal := finish do
  guardWrite dst s
  let (a, b, t) ← read2 dst src s
  let r ← aluOrRefuse t op (lo32 a) (lo32 b)
  .ok (advance (setReg t dst (zext64 r)) 1)

/-- An operation of class BPF_ALU64 with the immediate, sign-extended (R150, R154). -/
def alu64K (op : AluOp) (dst : RegNum) (imm : BitVec 32) (s : State) : Host.Outcome State Fault Refusal := finish do
  guardWrite dst s
  let (a, t) ← read1 dst s
  let r ← aluOrRefuse t op a (sext64 imm)
  .ok (advance (setReg t dst r) 1)

/-- An operation of class BPF_ALU64 with a register (R150, R154). -/
def alu64X (op : AluOp) (dst src : RegNum) (s : State) : Host.Outcome State Fault Refusal := finish do
  guardWrite dst s
  let (a, b, t) ← read2 dst src s
  let r ← aluOrRefuse t op a b
  .ok (advance (setReg t dst r) 1)

/-- An operation on one register: x[dst] becomes a function of its old value (NEG of R141 and R171, the byte swaps
of R182). -/
def unary (f : Word → Word) (dst : RegNum) (s : State) : Host.Outcome State Fault Refusal := finish do
  guardWrite dst s
  let (a, t) ← read1 dst s
  .ok (advance (setReg t dst (f a)) 1)

/-- Write a constant to a register and pass an instruction of `n` slots: BPF_MOV with the immediate, which does not read
its destination (R345), and the 64-bit immediates (R310). -/
def moveConst (n : Nat) (dst : RegNum) (v : Word) (s : State) : Host.Outcome State Fault Refusal := finish do
  guardWrite dst s
  .ok (advance (setReg s dst v) n)

/-- BPF_MOV with a register: x[dst] becomes a function of x[src]; the destination is not read (R345). -/
def moveReg (f : Word → Word) (dst src : RegNum) (s : State) : Host.Outcome State Fault Refusal := finish do
  guardWrite dst s
  let (b, t) ← read1 src s
  .ok (advance (setReg t dst (f b)) 1)

/-! ### Jumps (R190 to R193, R220 to R222) -/

/-- A conditional jump on 64-bit operands with the immediate, sign-extended (R190). -/
def jump64K (c : Cond) (dst : RegNum) (imm : BitVec 32) (off : BitVec 16) (s : State) :
    Host.Outcome State Fault Refusal := finish do
  let (a, t) ← read1 dst s
  .ok (branch t (condHolds c a (sext64 imm)) (offsetSlots off))

/-- A conditional jump on 64-bit operands with a register (R190). -/
def jump64X (c : Cond) (dst src : RegNum) (off : BitVec 16) (s : State) :
    Host.Outcome State Fault Refusal := finish do
  let (a, b, t) ← read2 dst src s
  .ok (branch t (condHolds c a b) (offsetSlots off))

/-- A conditional jump on 32-bit operands with the immediate (R220). -/
def jump32K (c : Cond) (dst : RegNum) (imm : BitVec 32) (off : BitVec 16) (s : State) :
    Host.Outcome State Fault Refusal := finish do
  let (a, t) ← read1 dst s
  .ok (branch t (condHolds c (lo32 a) imm) (offsetSlots off))

/-- A conditional jump on 32-bit operands with a register (R220). -/
def jump32X (c : Cond) (dst src : RegNum) (off : BitVec 16) (s : State) :
    Host.Outcome State Fault Refusal := finish do
  let (a, b, t) ← read2 dst src s
  .ok (branch t (condHolds c (lo32 a) (lo32 b)) (offsetSlots off))

/-! ### Loads, stores and atomic operations (R260 to R263, R280 to R285) -/

/-- A regular load of `n` bytes into x[dst], zero-extended (R260, R261, R263). -/
def load (n : Nat) (dst src : RegNum) (off : BitVec 16) (s : State) : Host.Outcome State Fault Refusal := finish do
  guardWrite dst s
  let (base, t) ← read1 src s
  checkAccess t (effAddr base off) n .read
  .ok (advance (setReg t dst (loadValue t (effAddr base off).toNat n)) 1)

/-- A regular store of `n` bytes of the sign-extended immediate (R260, R262, R263). -/
def storeImm (n : Nat) (dst : RegNum) (off : BitVec 16) (imm : BitVec 32) (s : State) :
    Host.Outcome State Fault Refusal := finish do
  let (base, t) ← read1 dst s
  checkAccess t (effAddr base off) n .write
  .ok (advance (writeValue t (effAddr base off).toNat n (sext64 imm)) 1)

/-- A regular store of the `n` low bytes of x[src] (R260, R262, R263). -/
def storeReg (n : Nat) (dst : RegNum) (off : BitVec 16) (src : RegNum) (s : State) :
    Host.Outcome State Fault Refusal := finish do
  let (base, v, t) ← read2 dst src s
  checkAccess t (effAddr base off) n .write
  .ok (advance (writeValue t (effAddr base off).toNat n v) 1)

/-- The atomic operations that combine the old value of memory with x[src] (R280). -/
inductive AtomicOp where
  | add
  | or
  | and
  | xor
  | xchg
  deriving DecidableEq, Repr

/-- What an atomic operation writes, from the old value and the operand; its low `8 * n` bits are stored, so the sum is
modulo 2^(8n) (R281). -/
def atomicResult (op : AtomicOp) (old v : Word) : Word :=
  match op with
  | .add => old + v
  | .or => old ||| v
  | .and => old &&& v
  | .xor => old ^^^ v
  | .xchg => v

/-- An atomic operation that leaves its registers alone (R281, R282). -/
def atomicUpdate (n : Nat) (op : AtomicOp) (dst : RegNum) (off : BitVec 16) (src : RegNum) (s : State) :
    Host.Outcome State Fault Refusal := finish do
  let (base, v, t) ← read2 dst src s
  let a := effAddr base off
  checkAccess t a n .atomic
  .ok (advance (writeValue t a.toNat n (atomicResult op (readValue t a.toNat n) (truncTo n v))) 1)

/-- An atomic operation that overwrites x[src] with the old value of memory, zero-extended (R281, R283, R284). -/
def atomicFetch (n : Nat) (op : AtomicOp) (dst : RegNum) (off : BitVec 16) (src : RegNum) (s : State) :
    Host.Outcome State Fault Refusal := finish do
  guardWrite src s
  let (base, v, t) ← read2 dst src s
  let a := effAddr base off
  checkAccess t a n .atomic
  let old := readValue t a.toNat n
  .ok (advance (setReg (writeValue t a.toNat n (atomicResult op old (truncTo n v))) src old) 1)

/-- Compare and exchange (R281, R284, R295, R305): x[src] replaces the value in memory when that equals the low bits of
x[0]; the old value goes to x[0] in either case. -/
def compareExchange (n : Nat) (dst : RegNum) (off : BitVec 16) (src : RegNum) (s : State) :
    Host.Outcome State Fault Refusal := finish do
  let (base, v, e, t) ← read3 dst src 0 s
  let a := effAddr base off
  checkAccess t a n .atomic
  let old := readValue t a.toNat n
  let u := if old = truncTo n e then writeValue t a.toNat n v else t
  .ok (advance (setReg u 0 old) 1)

/-! ### Calls and the call stack (R246 to R253) -/

/-- The table of functions of a space (R247). -/
def functionsOf (c : Config) (space : CallSpace) : List (BitVec 32 × FunDesc) :=
  match space with
  | .helper => c.helpers
  | .runtime => c.runtimeFuncs

/-- The argument registers of a function of the given arity: x[1] to x[k] (R250). -/
def argRegs (arity : Fin 6) : List RegNum := ([1, 2, 3, 4, 5] : List RegNum).take arity.val

/-- What a function description is evaluated on (R247): the parameters, the arguments, the data memory before the call, the
count of free choices, and the counter and the value of the loop that goes round. -/
structure FunInput where
  cfg : Config
  args : List Word
  mem : Memory
  choice : Nat
  index : Word
  acc : Word
  deriving DecidableEq, Repr

/-- The input of a call, outside every loop. -/
def callInput (c : Config) (args : List Word) (m : Memory) (choice : Nat) : FunInput := ⟨c, args, m, choice, 0, 0⟩

/-- A truth value as the description language has it. -/
def truthWord (b : Bool) : Word := if b then 1 else 0

/-- An operation of a function description. -/
def funOp (o : FunOp) (a b : Word) : Word :=
  match o with
  | .add => a + b
  | .sub => a - b
  | .mul => a * b
  | .div => divide .unsigned a b
  | .mod => modulo .unsigned a b
  | .and => a &&& b
  | .or => a ||| b
  | .xor => a ^^^ b
  | .shl => a <<< b.toNat
  | .shr => a >>> b.toNat
  | .eq => truthWord (a == b)
  | .ult => truthWord (a.ult b)

/-- Go round `n` times, with the number of the round and the value before it. -/
def goRound (f : Nat → Word → Word) (first : Word) : Nat → Word
  | 0 => first
  | n + 1 => f n (goRound f first n)

/-- The value of a term of a function description (R247). -/
def funValue : FunExpr → FunInput → Word
  | .const v, _ => v
  | .arg k, e => e.args.getD k 0
  | .index, e => e.index
  | .acc, e => e.acc
  | .load n a, e => wordOfBytes (inOrder e.cfg.hostEndian (bytesAt e.mem (funValue a e).toNat n.val))
  | .readable n a, e => truthWord (admits e.cfg (funValue a e).toNat (funValue n e).toNat .read)
  | .writable n a, e => truthWord (admits e.cfg (funValue a e).toNat (funValue n e).toNat .write)
  | .any k, e => Config.freeAny e.choice (funValue k e)
  | .op o a b, e => funOp o (funValue a e) (funValue b e)
  | .cond t a b, e => if funValue t e = 0 then funValue b e else funValue a e
  | .loop n a b, e =>
    goRound (fun i v => funValue b { e with index := BitVec.ofNat 64 i, acc := v }) (funValue a e) (funValue n e).toNat

/-- The bytes that one write of an outcome replaces: one for each index. -/
def writesOf (e : FunInput) (w : FunWrite) : List (Word × Byte) :=
  (List.range (funValue w.count e).toNat).map fun i =>
    let at_i := { e with index := BitVec.ofNat 64 i }
    (funValue w.addr at_i, (funValue w.value at_i).setWidth 8)

/-- The outcome that a description allows, on the arguments and the data memory of a call (R247). -/
def outcomeOf (e : FunInput) (o : OutcomeDesc) : CallOutcome where
  ret := funValue o.ret e
  writes := o.writes.flatMap (writesOf e)
  fails := funValue o.fails e != 0

/-- The case of a description that applies to a call: the first whose guard is not 0 (R247). -/
def caseOf (f : FunDesc) (e : FunInput) : Option FunCase := f.cases.find? fun k => funValue k.guard e != 0

/-- One of the outcomes that a description allows, by a free choice where there are several (R247). -/
def pickOutcome (outcomes : List CallOutcome) (otherwise : CallOutcome) (choice : Nat) : CallOutcome :=
  match outcomes with
  | [] => otherwise
  | [o] => o
  | o :: rest => ((o :: rest)[Config.freePick choice % (o :: rest).length]?).getD o

/-- The outcome of a function of the runtime (R247): one of those its description allows for the arguments and the data
memory, else free. -/
def functionOutcome (c : Config) (f : FunDesc) (space : CallSpace) (id : BitVec 32) (args : List Word) (m : Memory)
    (choice : Nat) : CallOutcome :=
  let e := callInput c args m choice
  let unknown := Config.freeCall space id args m choice
  match caseOf f e with
  | some k => pickOutcome (k.outcomes.map (outcomeOf e)) unknown choice
  | none => unknown

/-- A call of a helper or runtime function, one step (R247, R248, R250, R252). -/
def callFunction (space : CallSpace) (id : BitVec 32) (s : State) : Host.Outcome State Fault Refusal := finish do
  match (functionsOf s.cfg space).lookup id with
  | none => .error (.unknownFunction s.pc space id)
  | some f => do
    let (args, t) ← readRegs (argRegs f.arity) s
    let o := functionOutcome s.cfg f space id args t.mem t.fresh
    require (!(f.canFail && o.fails)) (.helperFault s.pc space id)
    let u := { t with mem := storeEach t.mem o.writes, fresh := t.fresh + 1 }
    .ok (advance (setReg (dropArgs u) 0 o.ret) 1)

/-- The record that a local call pushes (R251): the slot after the call, and the caller's R6 to R10. -/
def frameOf (s : State) : Frame := ⟨s.pc + 1, s.x[6], s.x[7], s.x[8], s.x[9], s.x[10]⟩

/-- Enter an eBPF function (R251) whose caller's frame pointer reads as `fp`: push a record, leave R6 to R9 without a
value, give the callee the 512 bytes below the caller's frame (R249), and go to the slot `disp` after the next. -/
def enterFunction (s : State) (fp : Word) (disp : Int) : State :=
  { setReg (dropReg (dropReg (dropReg (dropReg s 6) 7) 8) 9) 10 (fp - 512) with
    frames := frameOf s :: s.frames, pc := s.pc + 1 + disp }

/-- A call of an eBPF function (R251). Saving R6 to R9 is no read (R345); R10 is read, to make the callee's. -/
def callEbpf (disp : Int) (s : State) : Host.Outcome State Fault Refusal := finish do
  require (s.frames.length + 1 < s.cfg.maxCallDepth) (.callDepthExceeded s.pc)
  let (fp, t) ← read1 10 s
  .ok (enterFunction t fp disp)

/-- Return from an eBPF function to the record `f`, the records `rest` remaining (R253): the caller's R6 to R10 come back,
R1 to R5 hold no value, R0 is left. -/
def leaveFunction (s : State) (f : Frame) (rest : List Frame) : State :=
  let t := dropArgs s
  { t with
    x := ((((t.x.set 6 f.s6).set 7 f.s7).set 8 f.s8).set 9 f.s9).set 10 f.s10, frames := rest, pc := f.retPc }

/-- EXIT (R253): read x[0]; with an empty call stack the run ends with it and nothing else changes (R377), else return. -/
def exitFunction (s : State) : Host.Outcome State Fault Refusal := finish do
  let (v, t) ← read1 0 s
  match t.frames with
  | [] => .ok { t with status := .ended v }
  | f :: rest => .ok (leaveFunction t f rest)

/-! ### 64-bit immediates (R311) -/

/-- The value of a platform function, none where it is undefined (R311). One of which nothing is known has the same free
values in every run and for every program, which is more than R379 (e) says: the model's choice (log 8). -/
def platValue {α : Type} [DecidableEq α] (f : PlatFun α) (free : α → Word) (arg : α) : Option Word :=
  match f with
  | .free => some (free arg)
  | .table entries => (entries.find? fun e => e.1 == arg).map (·.2)

/-- `map_by_fd`, where maps are supported (R311). -/
def mapByFd (c : Config) (fd : BitVec 32) : Option Word :=
  if c.mapsSupported then platValue c.mapByFd Config.freeMapByFd fd else none

/-- `map_by_idx`, where maps are supported (R311). -/
def mapByIdx (c : Config) (idx : BitVec 32) : Option Word :=
  if c.mapsSupported then platValue c.mapByIdx Config.freeMapByIdx idx else none

/-- `mva` (R311). -/
def mapValueAddr (c : Config) (map : Word) : Option Word := platValue c.mva Config.freeMva map

/-- `variable_addr`, where variables are supported (R311). -/
def variableAddr (c : Config) (id : BitVec 32) : Option Word :=
  if c.varsSupported then platValue c.variableAddr Config.freeVariableAddr id else none

/-- `code_addr` of the current slot and a signed offset (R317). -/
def codeAddr (c : Config) (pc off : Int) : Option Word := platValue c.codeAddr Config.freeCodeAddr (pc, off)

/-- Load the value that the platform gives into x[dst], all 64 bits, past two slots; where it gives none, the form is
illegal (R310, R311). -/
def loadPlatform (dst : RegNum) (v : Option Word) (s : State) : Host.Outcome State Fault Refusal :=
  match v with
  | some w => moveConst 2 dst w s
  | none => .fault (illegal s .unsupportedOptional)

end Sys2Proof.Machine
end

