-- ==== Sys2Proof/Machine/Alu32.lean ====
section
/-! DEFINITION. BPF_ALU: 32-bit arithmetic (R120 to R149): operands of 32 bits, results zero-extended (R120). One meaning for each instruction, over the
shared operations. -/

namespace Sys2Proof.Machine

/-- R125, `ADD32_K`: `dst = (uint32_t)(dst + imm)`. -/
def execAdd32K (dst : RegNum) (imm : BitVec 32) (s : State) : Host.Outcome State Fault Refusal :=
  alu32K .add dst imm s

/-- R126, `ADD32_X`: `dst = (uint32_t)(dst + src)`. -/
def execAdd32X (dst src : RegNum) (s : State) : Host.Outcome State Fault Refusal :=
  alu32X .add dst src s

/-- R127, `SUB32_K`: `dst = (uint32_t)(dst - imm)`. -/
def execSub32K (dst : RegNum) (imm : BitVec 32) (s : State) : Host.Outcome State Fault Refusal :=
  alu32K .sub dst imm s

/-- R128, `SUB32_X`: `dst = (uint32_t)(dst - src)`. -/
def execSub32X (dst src : RegNum) (s : State) : Host.Outcome State Fault Refusal :=
  alu32X .sub dst src s

/-- R129, `MUL32_K`: `dst = (uint32_t)(dst * imm)`. -/
def execMul32K (dst : RegNum) (imm : BitVec 32) (s : State) : Host.Outcome State Fault Refusal :=
  alu32K .mul dst imm s

/-- R130, `MUL32_X`: `dst = (uint32_t)(dst * src)`. -/
def execMul32X (dst src : RegNum) (s : State) : Host.Outcome State Fault Refusal :=
  alu32X .mul dst src s

/-- R131, `DIV32_K`: `dst = (uint32_t)((imm != 0) ? (dst / imm) : 0)`. -/
def execDiv32K (dst : RegNum) (imm : BitVec 32) (s : State) : Host.Outcome State Fault Refusal :=
  alu32K .div dst imm s

/-- R132, `DIV32_X`: `dst = (uint32_t)((imm != 0) ? (dst / src) : 0)`. -/
def execDiv32X (dst src : RegNum) (s : State) : Host.Outcome State Fault Refusal :=
  alu32X .div dst src s

/-- R133, `OR32_K`: `dst = (uint32_t)(dst | imm)`. -/
def execOr32K (dst : RegNum) (imm : BitVec 32) (s : State) : Host.Outcome State Fault Refusal :=
  alu32K .or dst imm s

/-- R134, `OR32_X`: `dst = (uint32_t)(dst | src)`. -/
def execOr32X (dst src : RegNum) (s : State) : Host.Outcome State Fault Refusal :=
  alu32X .or dst src s

/-- R135, `AND32_K`: `dst = (uint32_t)(dst & imm)`. -/
def execAnd32K (dst : RegNum) (imm : BitVec 32) (s : State) : Host.Outcome State Fault Refusal :=
  alu32K .and dst imm s

/-- R136, `AND32_X`: `dst = (uint32_t)(dst & src)`. -/
def execAnd32X (dst src : RegNum) (s : State) : Host.Outcome State Fault Refusal :=
  alu32X .and dst src s

/-- R137, `LSH32_K`: `dst = (uint32_t)(dst << imm)`. -/
def execLsh32K (dst : RegNum) (imm : BitVec 32) (s : State) : Host.Outcome State Fault Refusal :=
  alu32K .lsh dst imm s

/-- R138, `LSH32_X`: `dst = (uint32_t)(dst << src)`. -/
def execLsh32X (dst src : RegNum) (s : State) : Host.Outcome State Fault Refusal :=
  alu32X .lsh dst src s

/-- R139, `RSH32_K`: `dst = (uint32_t)(dst >> imm)`. -/
def execRsh32K (dst : RegNum) (imm : BitVec 32) (s : State) : Host.Outcome State Fault Refusal :=
  alu32K .rsh dst imm s

/-- R140, `RSH32_X`: `dst = (uint32_t)(dst >> src)`. -/
def execRsh32X (dst src : RegNum) (s : State) : Host.Outcome State Fault Refusal :=
  alu32X .rsh dst src s

/-- R141, `NEG32`: `dst = (uint32_t)-dst`. -/
def execNeg32 (dst : RegNum) (s : State) : Host.Outcome State Fault Refusal :=
  unary (fun v => zext64 (-lo32 v)) dst s

/-- R142, `MOD32_K`: `dst = (uint32_t)((imm != 0) ? (dst % imm) : dst)`. -/
def execMod32K (dst : RegNum) (imm : BitVec 32) (s : State) : Host.Outcome State Fault Refusal :=
  alu32K .mod dst imm s

/-- R143, `MOD32_X`: `dst = (uint32_t)((src != 0) ? (dst % src) : dst)`. -/
def execMod32X (dst src : RegNum) (s : State) : Host.Outcome State Fault Refusal :=
  alu32X .mod dst src s

/-- R144, `XOR32_K`: `dst = (uint32_t)(dst ^ imm)`. -/
def execXor32K (dst : RegNum) (imm : BitVec 32) (s : State) : Host.Outcome State Fault Refusal :=
  alu32K .xor dst imm s

/-- R145, `XOR32_X`: `dst = (uint32_t)(dst ^ src)`. -/
def execXor32X (dst src : RegNum) (s : State) : Host.Outcome State Fault Refusal :=
  alu32X .xor dst src s

/-- R146, `MOV32_K`: `dst = (uint32_t) imm`. -/
def execMov32K (dst : RegNum) (imm : BitVec 32) (s : State) : Host.Outcome State Fault Refusal :=
  moveConst 1 dst (zext64 imm) s

/-- R147, `MOV32_X`: `dst = (uint32_t) src`. -/
def execMov32X (dst src : RegNum) (s : State) : Host.Outcome State Fault Refusal :=
  moveReg (fun v => zext64 (lo32 v)) dst src s

/-- R148, `ARSH32_K`: `dst = (uint32_t)(dst s>> imm)`. -/
def execArsh32K (dst : RegNum) (imm : BitVec 32) (s : State) : Host.Outcome State Fault Refusal :=
  alu32K .arsh dst imm s

/-- R149, `ARSH32_X`: `dst = (uint32_t)(dst s>> src)`. -/
def execArsh32X (dst src : RegNum) (s : State) : Host.Outcome State Fault Refusal :=
  alu32X .arsh dst src s

end Sys2Proof.Machine
end

