-- ==== Sys2Proof/Machine/Alu64.lean ====
section
/-! DEFINITION. BPF_ALU64: 64-bit arithmetic (R150 to R179): operands of 64 bits, the immediate sign-extended (R150). One meaning for each instruction, over the
shared operations. -/

namespace Sys2Proof.Machine

/-- R155, `ADD64_K`: `dst += imm`. -/
def execAdd64K (dst : RegNum) (imm : BitVec 32) (s : State) : Host.Outcome State Fault Refusal :=
  alu64K .add dst imm s

/-- R156, `ADD64_X`: `dst += src`. -/
def execAdd64X (dst src : RegNum) (s : State) : Host.Outcome State Fault Refusal :=
  alu64X .add dst src s

/-- R157, `SUB64_K`: `dst -= imm`. -/
def execSub64K (dst : RegNum) (imm : BitVec 32) (s : State) : Host.Outcome State Fault Refusal :=
  alu64K .sub dst imm s

/-- R158, `SUB64_X`: `dst -= src`. -/
def execSub64X (dst src : RegNum) (s : State) : Host.Outcome State Fault Refusal :=
  alu64X .sub dst src s

/-- R159, `MUL64_K`: `dst *= imm`. -/
def execMul64K (dst : RegNum) (imm : BitVec 32) (s : State) : Host.Outcome State Fault Refusal :=
  alu64K .mul dst imm s

/-- R160, `MUL64_X`: `dst *= src`. -/
def execMul64X (dst src : RegNum) (s : State) : Host.Outcome State Fault Refusal :=
  alu64X .mul dst src s

/-- R161, `DIV64_K`: `dst = (imm != 0) ? (dst / imm) : 0`. -/
def execDiv64K (dst : RegNum) (imm : BitVec 32) (s : State) : Host.Outcome State Fault Refusal :=
  alu64K .div dst imm s

/-- R162, `DIV64_X`: `dst = (src != 0) ? (dst / src) : 0`. -/
def execDiv64X (dst src : RegNum) (s : State) : Host.Outcome State Fault Refusal :=
  alu64X .div dst src s

/-- R163, `OR64_K`: `dst |= imm`. -/
def execOr64K (dst : RegNum) (imm : BitVec 32) (s : State) : Host.Outcome State Fault Refusal :=
  alu64K .or dst imm s

/-- R164, `OR64_X`: `dst |= src`. -/
def execOr64X (dst src : RegNum) (s : State) : Host.Outcome State Fault Refusal :=
  alu64X .or dst src s

/-- R165, `AND64_K`: `dst &= imm`. -/
def execAnd64K (dst : RegNum) (imm : BitVec 32) (s : State) : Host.Outcome State Fault Refusal :=
  alu64K .and dst imm s

/-- R166, `AND64_X`: `dst &= src`. -/
def execAnd64X (dst src : RegNum) (s : State) : Host.Outcome State Fault Refusal :=
  alu64X .and dst src s

/-- R167, `LSH64_K`: `dst <<= imm`. -/
def execLsh64K (dst : RegNum) (imm : BitVec 32) (s : State) : Host.Outcome State Fault Refusal :=
  alu64K .lsh dst imm s

/-- R168, `LSH64_X`: `dst <<= src`. -/
def execLsh64X (dst src : RegNum) (s : State) : Host.Outcome State Fault Refusal :=
  alu64X .lsh dst src s

/-- R169, `RSH64_K`: `dst >>= imm`. -/
def execRsh64K (dst : RegNum) (imm : BitVec 32) (s : State) : Host.Outcome State Fault Refusal :=
  alu64K .rsh dst imm s

/-- R170, `RSH64_X`: `dst >>= src`. -/
def execRsh64X (dst src : RegNum) (s : State) : Host.Outcome State Fault Refusal :=
  alu64X .rsh dst src s

/-- R171, `NEG64`: `dst = -dst`. -/
def execNeg64 (dst : RegNum) (s : State) : Host.Outcome State Fault Refusal :=
  unary (fun v => -v) dst s

/-- R172, `MOD64_K`: `dst = (imm != 0) ? (dst % imm) : dst`. -/
def execMod64K (dst : RegNum) (imm : BitVec 32) (s : State) : Host.Outcome State Fault Refusal :=
  alu64K .mod dst imm s

/-- R173, `MOD64_X`: `dst = (src != 0) ? (dst % src) : dst`. -/
def execMod64X (dst src : RegNum) (s : State) : Host.Outcome State Fault Refusal :=
  alu64X .mod dst src s

/-- R174, `XOR64_K`: `dst ^= imm`. -/
def execXor64K (dst : RegNum) (imm : BitVec 32) (s : State) : Host.Outcome State Fault Refusal :=
  alu64K .xor dst imm s

/-- R175, `XOR64_X`: `dst ^= src`. -/
def execXor64X (dst src : RegNum) (s : State) : Host.Outcome State Fault Refusal :=
  alu64X .xor dst src s

/-- R176, `MOV64_K`: `dst = imm`. -/
def execMov64K (dst : RegNum) (imm : BitVec 32) (s : State) : Host.Outcome State Fault Refusal :=
  moveConst 1 dst (sext64 imm) s

/-- R177, `MOV64_X`: `dst = src`. -/
def execMov64X (dst src : RegNum) (s : State) : Host.Outcome State Fault Refusal :=
  moveReg (fun v => v) dst src s

/-- R178, `ARSH64_K`: `dst s>>= imm`. -/
def execArsh64K (dst : RegNum) (imm : BitVec 32) (s : State) : Host.Outcome State Fault Refusal :=
  alu64K .arsh dst imm s

/-- R179, `ARSH64_X`: `dst s>>= src`. -/
def execArsh64X (dst src : RegNum) (s : State) : Host.Outcome State Fault Refusal :=
  alu64X .arsh dst src s

end Sys2Proof.Machine
end

