-- ==== Sys2Proof/Machine/Atomic.lean ====
section
/-! DEFINITION. BPF_ATOMIC: atomic operations (R280 to R305): indivisible read-modify-write operations (R280 to R285). One meaning for each instruction, over the
shared operations. -/

namespace Sys2Proof.Machine

/-- R286, `ATOMIC_ADD32`: `lock *(uint32_t *)(dst + offset) += src`. -/
def execAtomicAdd32 (dst : RegNum) (off : BitVec 16) (src : RegNum) (s : State) : Host.Outcome State Fault Refusal :=
  atomicUpdate 4 .add dst off src s

/-- R287, `ATOMIC_FETCH_ADD32`: `lock: *(uint32_t *)(dst + offset) += src; src = *(uint32_t *)(dst + offset)`. -/
def execAtomicFetchAdd32 (dst : RegNum) (off : BitVec 16) (src : RegNum) (s : State) : Host.Outcome State Fault Refusal :=
  atomicFetch 4 .add dst off src s

/-- R288, `ATOMIC_OR32`: `*(uint32_t *)(dst + offset) |= src`. -/
def execAtomicOr32 (dst : RegNum) (off : BitVec 16) (src : RegNum) (s : State) : Host.Outcome State Fault Refusal :=
  atomicUpdate 4 .or dst off src s

/-- R289, `ATOMIC_FETCH_OR32`: `lock: *(uint32_t *)(dst + offset) |= src; src = *(uint32_t *)(dst + offset)`. -/
def execAtomicFetchOr32 (dst : RegNum) (off : BitVec 16) (src : RegNum) (s : State) : Host.Outcome State Fault Refusal :=
  atomicFetch 4 .or dst off src s

/-- R290, `ATOMIC_AND32`: `*(uint32_t *)(dst + offset) &= src`. -/
def execAtomicAnd32 (dst : RegNum) (off : BitVec 16) (src : RegNum) (s : State) : Host.Outcome State Fault Refusal :=
  atomicUpdate 4 .and dst off src s

/-- R291, `ATOMIC_FETCH_AND32`: `lock: *(uint32_t *)(dst + offset) &= src; src = *(uint32_t *)(dst + offset)`. -/
def execAtomicFetchAnd32 (dst : RegNum) (off : BitVec 16) (src : RegNum) (s : State) : Host.Outcome State Fault Refusal :=
  atomicFetch 4 .and dst off src s

/-- R292, `ATOMIC_XOR32`: `*(uint32_t *)(dst + offset) ^= src`. -/
def execAtomicXor32 (dst : RegNum) (off : BitVec 16) (src : RegNum) (s : State) : Host.Outcome State Fault Refusal :=
  atomicUpdate 4 .xor dst off src s

/-- R293, `ATOMIC_FETCH_XOR32`: `lock: *(uint32_t *)(dst + offset) ^= src; src = *(uint32_t *)(dst + offset)`. -/
def execAtomicFetchXor32 (dst : RegNum) (off : BitVec 16) (src : RegNum) (s : State) : Host.Outcome State Fault Refusal :=
  atomicFetch 4 .xor dst off src s

/-- R294, `ATOMIC_XCHG32`: `lock: temp = *(uint32_t *)(dst + offset); *(uint32_t *)(dst + offset) = src; src = temp`. -/
def execAtomicXchg32 (dst : RegNum) (off : BitVec 16) (src : RegNum) (s : State) : Host.Outcome State Fault Refusal :=
  atomicFetch 4 .xchg dst off src s

/-- R295, `ATOMIC_CMPXCHG32`: `lock: temp = *(uint32_t *)(dst + offset); if *(uint32_t *)(dst + offset) == R0 *(uint32_t *)(dst + offset) = src; R0 = temp`. -/
def execAtomicCmpxchg32 (dst : RegNum) (off : BitVec 16) (src : RegNum) (s : State) : Host.Outcome State Fault Refusal :=
  compareExchange 4 dst off src s

/-- R296, `ATOMIC_ADD64`: `lock *(uint64_t *)(dst + offset) += src`. -/
def execAtomicAdd64 (dst : RegNum) (off : BitVec 16) (src : RegNum) (s : State) : Host.Outcome State Fault Refusal :=
  atomicUpdate 8 .add dst off src s

/-- R297, `ATOMIC_FETCH_ADD64`: `lock: *(uint64_t *)(dst + offset) += src; src = *(uint64_t *)(dst + offset)`. -/
def execAtomicFetchAdd64 (dst : RegNum) (off : BitVec 16) (src : RegNum) (s : State) : Host.Outcome State Fault Refusal :=
  atomicFetch 8 .add dst off src s

/-- R298, `ATOMIC_OR64`: `*(uint64_t *)(dst + offset) |= src`. -/
def execAtomicOr64 (dst : RegNum) (off : BitVec 16) (src : RegNum) (s : State) : Host.Outcome State Fault Refusal :=
  atomicUpdate 8 .or dst off src s

/-- R299, `ATOMIC_FETCH_OR64`: `lock: *(uint64_t *)(dst + offset) |= src; src = *(uint64_t *)(dst + offset)`. -/
def execAtomicFetchOr64 (dst : RegNum) (off : BitVec 16) (src : RegNum) (s : State) : Host.Outcome State Fault Refusal :=
  atomicFetch 8 .or dst off src s

/-- R300, `ATOMIC_AND64`: `*(uint64_t *)(dst + offset) &= src`. -/
def execAtomicAnd64 (dst : RegNum) (off : BitVec 16) (src : RegNum) (s : State) : Host.Outcome State Fault Refusal :=
  atomicUpdate 8 .and dst off src s

/-- R301, `ATOMIC_FETCH_AND64`: `lock: *(uint64_t *)(dst + offset) &= src; src = *(uint64_t *)(dst + offset)`. -/
def execAtomicFetchAnd64 (dst : RegNum) (off : BitVec 16) (src : RegNum) (s : State) : Host.Outcome State Fault Refusal :=
  atomicFetch 8 .and dst off src s

/-- R302, `ATOMIC_XOR64`: `*(uint64_t *)(dst + offset) ^= src`. -/
def execAtomicXor64 (dst : RegNum) (off : BitVec 16) (src : RegNum) (s : State) : Host.Outcome State Fault Refusal :=
  atomicUpdate 8 .xor dst off src s

/-- R303, `ATOMIC_FETCH_XOR64`: `lock: *(uint64_t *)(dst + offset) ^= src; src = *(uint64_t *)(dst + offset)`. -/
def execAtomicFetchXor64 (dst : RegNum) (off : BitVec 16) (src : RegNum) (s : State) : Host.Outcome State Fault Refusal :=
  atomicFetch 8 .xor dst off src s

/-- R304, `ATOMIC_XCHG64`: `lock: temp = *(uint64_t *)(dst + offset); *(uint64_t *)(dst + offset) = src; src = temp`. -/
def execAtomicXchg64 (dst : RegNum) (off : BitVec 16) (src : RegNum) (s : State) : Host.Outcome State Fault Refusal :=
  atomicFetch 8 .xchg dst off src s

/-- R305, `ATOMIC_CMPXCHG64`: `lock: temp = *(uint64_t *)(dst + offset); if *(uint64_t *)(dst + offset) == R0 *(uint64_t *)(dst + offset) = src; R0 = temp`. -/
def execAtomicCmpxchg64 (dst : RegNum) (off : BitVec 16) (src : RegNum) (s : State) : Host.Outcome State Fault Refusal :=
  compareExchange 8 dst off src s

end Sys2Proof.Machine
end

