-- ==== Sys2Proof/Machine/ByteSwap.lean ====
section
/-! DEFINITION. BPF_END: byte swaps (R180 to R188): conversion of the low N bits between the byte order of the host and a named one (R180 to R182). One meaning for each instruction, over the
shared operations. -/

namespace Sys2Proof.Machine

/-- R183, `LE16`: `dst = htole16(dst)`. -/
def execLe16 (dst : RegNum) (s : State) : Host.Outcome State Fault Refusal :=
  unary (convertOrder .little s.cfg.hostEndian 2) dst s

/-- R184, `LE32`: `dst = htole32(dst)`. -/
def execLe32 (dst : RegNum) (s : State) : Host.Outcome State Fault Refusal :=
  unary (convertOrder .little s.cfg.hostEndian 4) dst s

/-- R185, `LE64`: `dst = htole64(dst)`. -/
def execLe64 (dst : RegNum) (s : State) : Host.Outcome State Fault Refusal :=
  unary (convertOrder .little s.cfg.hostEndian 8) dst s

/-- R186, `BE16`: `dst = htobe16(dst)`. -/
def execBe16 (dst : RegNum) (s : State) : Host.Outcome State Fault Refusal :=
  unary (convertOrder .big s.cfg.hostEndian 2) dst s

/-- R187, `BE32`: `dst = htobe32(dst)`. -/
def execBe32 (dst : RegNum) (s : State) : Host.Outcome State Fault Refusal :=
  unary (convertOrder .big s.cfg.hostEndian 4) dst s

/-- R188, `BE64`: `dst = htobe64(dst)`. -/
def execBe64 (dst : RegNum) (s : State) : Host.Outcome State Fault Refusal :=
  unary (convertOrder .big s.cfg.hostEndian 8) dst s

end Sys2Proof.Machine
end

