-- ==== Sys2Proof/Machine/CallExit.lean ====
section
/-! DEFINITION. BPF_CALL and BPF_EXIT (R246 to R254): calls of helper, runtime and eBPF functions, and the return (R246 to R249). One meaning for each instruction, over the
shared operations. -/

namespace Sys2Proof.Machine

/-- R250, `CALL_HELPER`: `call helper function imm`. -/
def execCallHelper (id : BitVec 32) (s : State) : Host.Outcome State Fault Refusal :=
  callFunction .helper id s

/-- R251, `CALL_LOCAL`: `call PC += offset`. The displacement stands in the field that `LOCAL_CALL_DISP` names; in
`imm`, `offset` must be zero. -/
def execCallLocal (off : BitVec 16) (imm : BitVec 32) (s : State) : Host.Outcome State Fault Refusal :=
  match s.cfg.localCallDisp with
  | .offset => callEbpf (offsetSlots off) s
  | .imm => if off = 0 then callEbpf imm.toInt s else .fault (illegal s .nonzeroUnusedField)

/-- R252, `CALL_RUNTIME`: `call runtime function imm`. -/
def execCallRuntime (id : BitVec 32) (s : State) : Host.Outcome State Fault Refusal :=
  callFunction .runtime id s

/-- R253, `EXIT`: `return`. -/
def execExit (s : State) : Host.Outcome State Fault Refusal :=
  exitFunction s

end Sys2Proof.Machine
end

