-- ==== Sys2Proof/Machine/Imm64.lean ====
section
/-! DEFINITION. BPF_IMM: 64-bit immediates (R310 to R319): wide instructions that load a constant or an address of the platform (R310 to R312). One meaning for each instruction, over the
shared operations. -/

namespace Sys2Proof.Machine

/-- R313, `LD_IMM64`: `dst = imm64`. -/
def execLdImm64 (dst : RegNum) (imm nextImm : BitVec 32) (s : State) : Host.Outcome State Fault Refusal :=
  moveConst 2 dst (nextImm ++ imm) s

/-- R314, `LD_MAP_FD`: `dst = map_by_fd(imm)`. -/
def execLdMapFd (dst : RegNum) (imm : BitVec 32) (s : State) : Host.Outcome State Fault Refusal :=
  loadPlatform dst (mapByFd s.cfg imm) s

/-- R315, `LD_MAP_FD_VALUE`: `dst = mva(map_by_fd(imm)) + next_imm`. -/
def execLdMapFdValue (dst : RegNum) (imm nextImm : BitVec 32) (s : State) : Host.Outcome State Fault Refusal :=
  loadPlatform dst (((mapByFd s.cfg imm).bind (mapValueAddr s.cfg)).map (· + zext64 nextImm)) s

/-- R316, `LD_VAR_ADDR`: `dst = variable_addr(imm)`. -/
def execLdVarAddr (dst : RegNum) (imm : BitVec 32) (s : State) : Host.Outcome State Fault Refusal :=
  loadPlatform dst (variableAddr s.cfg imm) s

/-- R317, `LD_CODE_ADDR`: `dst = code_addr(imm)`. -/
def execLdCodeAddr (dst : RegNum) (imm : BitVec 32) (s : State) : Host.Outcome State Fault Refusal :=
  loadPlatform dst (codeAddr s.cfg s.pc imm.toInt) s

/-- R318, `LD_MAP_IDX`: `dst = map_by_idx(imm)`. -/
def execLdMapIdx (dst : RegNum) (imm : BitVec 32) (s : State) : Host.Outcome State Fault Refusal :=
  loadPlatform dst (mapByIdx s.cfg imm) s

/-- R319, `LD_MAP_IDX_VALUE`: `dst = mva(map_by_idx(imm)) + next_imm`. -/
def execLdMapIdxValue (dst : RegNum) (imm nextImm : BitVec 32) (s : State) : Host.Outcome State Fault Refusal :=
  loadPlatform dst (((mapByIdx s.cfg imm).bind (mapValueAddr s.cfg)).map (· + zext64 nextImm)) s

end Sys2Proof.Machine
end

