-- ==== Sys2Proof/Machine/Jump32.lean ====
section
/-! DEFINITION. BPF_JMP32: jumps on 32-bit operands (R220 to R244): comparison of 32-bit operands (R220). One meaning for each instruction, over the
shared operations. -/

namespace Sys2Proof.Machine

/-- R223, `JEQ32_K`: `if (uint32_t)dst == imm goto +offset`. -/
def execJeq32K (dst : RegNum) (imm : BitVec 32) (off : BitVec 16) (s : State) : Host.Outcome State Fault Refusal :=
  jump32K .eq dst imm off s

/-- R224, `JEQ32_X`: `if (uint32_t)dst == (uint32_t)src goto +offset`. -/
def execJeq32X (dst src : RegNum) (off : BitVec 16) (s : State) : Host.Outcome State Fault Refusal :=
  jump32X .eq dst src off s

/-- R225, `JGT32_K`: `if (uint32_t)dst > imm goto +offset`. -/
def execJgt32K (dst : RegNum) (imm : BitVec 32) (off : BitVec 16) (s : State) : Host.Outcome State Fault Refusal :=
  jump32K .gt dst imm off s

/-- R226, `JGT32_X`: `if (uint32_t)dst > (uint32_t)src goto +offset`. -/
def execJgt32X (dst src : RegNum) (off : BitVec 16) (s : State) : Host.Outcome State Fault Refusal :=
  jump32X .gt dst src off s

/-- R227, `JGE32_K`: `if (uint32_t)dst >= imm goto +offset`. -/
def execJge32K (dst : RegNum) (imm : BitVec 32) (off : BitVec 16) (s : State) : Host.Outcome State Fault Refusal :=
  jump32K .ge dst imm off s

/-- R228, `JGE32_X`: `if (uint32_t)dst >= (uint32_t)src goto +offset`. -/
def execJge32X (dst src : RegNum) (off : BitVec 16) (s : State) : Host.Outcome State Fault Refusal :=
  jump32X .ge dst src off s

/-- R229, `JSET32_K`: `if (uint32_t)dst & imm goto +offset`. -/
def execJset32K (dst : RegNum) (imm : BitVec 32) (off : BitVec 16) (s : State) : Host.Outcome State Fault Refusal :=
  jump32K .set dst imm off s

/-- R230, `JSET32_X`: `if (uint32_t)dst & (uint32_t)src goto +offset`. -/
def execJset32X (dst src : RegNum) (off : BitVec 16) (s : State) : Host.Outcome State Fault Refusal :=
  jump32X .set dst src off s

/-- R231, `JNE32_K`: `if (uint32_t)dst != imm goto +offset`. -/
def execJne32K (dst : RegNum) (imm : BitVec 32) (off : BitVec 16) (s : State) : Host.Outcome State Fault Refusal :=
  jump32K .ne dst imm off s

/-- R232, `JNE32_X`: `if (uint32_t)dst != (uint32_t)src goto +offset`. -/
def execJne32X (dst src : RegNum) (off : BitVec 16) (s : State) : Host.Outcome State Fault Refusal :=
  jump32X .ne dst src off s

/-- R233, `JSGT32_K`: `if (int32_t)dst s> (int32_t)imm goto +offset`. -/
def execJsgt32K (dst : RegNum) (imm : BitVec 32) (off : BitVec 16) (s : State) : Host.Outcome State Fault Refusal :=
  jump32K .sgt dst imm off s

/-- R234, `JSGT32_X`: `if (int32_t)dst s> (int32_t)src goto +offset`. -/
def execJsgt32X (dst src : RegNum) (off : BitVec 16) (s : State) : Host.Outcome State Fault Refusal :=
  jump32X .sgt dst src off s

/-- R235, `JSGE32_K`: `if (int32_t)dst s>= (int32_t)imm goto +offset`. -/
def execJsge32K (dst : RegNum) (imm : BitVec 32) (off : BitVec 16) (s : State) : Host.Outcome State Fault Refusal :=
  jump32K .sge dst imm off s

/-- R236, `JSGE32_X`: `if (int32_t)dst s>= (int32_t)src goto +offset`. -/
def execJsge32X (dst src : RegNum) (off : BitVec 16) (s : State) : Host.Outcome State Fault Refusal :=
  jump32X .sge dst src off s

/-- R237, `JLT32_K`: `if (uint32_t)dst < imm goto +offset`. -/
def execJlt32K (dst : RegNum) (imm : BitVec 32) (off : BitVec 16) (s : State) : Host.Outcome State Fault Refusal :=
  jump32K .lt dst imm off s

/-- R238, `JLT32_X`: `if (uint32_t)dst < (uint32_t)src goto +offset`. -/
def execJlt32X (dst src : RegNum) (off : BitVec 16) (s : State) : Host.Outcome State Fault Refusal :=
  jump32X .lt dst src off s

/-- R239, `JLE32_K`: `if (uint32_t)dst <= imm goto +offset`. -/
def execJle32K (dst : RegNum) (imm : BitVec 32) (off : BitVec 16) (s : State) : Host.Outcome State Fault Refusal :=
  jump32K .le dst imm off s

/-- R240, `JLE32_X`: `if (uint32_t)dst <= (uint32_t)src goto +offset`. -/
def execJle32X (dst src : RegNum) (off : BitVec 16) (s : State) : Host.Outcome State Fault Refusal :=
  jump32X .le dst src off s

/-- R241, `JSLT32_K`: `if (int32_t)dst s< (int32_t)imm goto +offset`. -/
def execJslt32K (dst : RegNum) (imm : BitVec 32) (off : BitVec 16) (s : State) : Host.Outcome State Fault Refusal :=
  jump32K .slt dst imm off s

/-- R242, `JSLT32_X`: `if (int32_t)dst s< (int32_t)src goto +offset`. -/
def execJslt32X (dst src : RegNum) (off : BitVec 16) (s : State) : Host.Outcome State Fault Refusal :=
  jump32X .slt dst src off s

/-- R243, `JSLE32_K`: `if (int32_t)dst s<= (int32_t)imm goto +offset`. -/
def execJsle32K (dst : RegNum) (imm : BitVec 32) (off : BitVec 16) (s : State) : Host.Outcome State Fault Refusal :=
  jump32K .sle dst imm off s

/-- R244, `JSLE32_X`: `if (int32_t)dst s<= (int32_t)src goto +offset`. -/
def execJsle32X (dst src : RegNum) (off : BitVec 16) (s : State) : Host.Outcome State Fault Refusal :=
  jump32X .sle dst src off s

end Sys2Proof.Machine
end

