-- ==== Sys2Proof/Machine/Jump64.lean ====
section
/-! DEFINITION. BPF_JMP: jumps on 64-bit operands (R190 to R216): comparison of 64-bit operands (R190). One meaning for each instruction, over the
shared operations. -/

namespace Sys2Proof.Machine

/-- R194, `JA`: `goto +offset`. -/
def execJa (off : BitVec 16) (s : State) : Host.Outcome State Fault Refusal :=
  finish (.ok (branch s true (offsetSlots off)))

/-- R195, `JEQ64_K`: `if dst == imm goto +offset`. -/
def execJeq64K (dst : RegNum) (imm : BitVec 32) (off : BitVec 16) (s : State) : Host.Outcome State Fault Refusal :=
  jump64K .eq dst imm off s

/-- R196, `JEQ64_X`: `if dst == src goto +offset`. -/
def execJeq64X (dst src : RegNum) (off : BitVec 16) (s : State) : Host.Outcome State Fault Refusal :=
  jump64X .eq dst src off s

/-- R197, `JGT64_K`: `if dst > imm goto +offset`. -/
def execJgt64K (dst : RegNum) (imm : BitVec 32) (off : BitVec 16) (s : State) : Host.Outcome State Fault Refusal :=
  jump64K .gt dst imm off s

/-- R198, `JGT64_X`: `if dst > src goto +offset`. -/
def execJgt64X (dst src : RegNum) (off : BitVec 16) (s : State) : Host.Outcome State Fault Refusal :=
  jump64X .gt dst src off s

/-- R199, `JGE64_K`: `if dst >= imm goto +offset`. -/
def execJge64K (dst : RegNum) (imm : BitVec 32) (off : BitVec 16) (s : State) : Host.Outcome State Fault Refusal :=
  jump64K .ge dst imm off s

/-- R200, `JGE64_X`: `if dst >= src goto +offset`. -/
def execJge64X (dst src : RegNum) (off : BitVec 16) (s : State) : Host.Outcome State Fault Refusal :=
  jump64X .ge dst src off s

/-- R201, `JSET64_K`: `if dst & imm goto +offset`. -/
def execJset64K (dst : RegNum) (imm : BitVec 32) (off : BitVec 16) (s : State) : Host.Outcome State Fault Refusal :=
  jump64K .set dst imm off s

/-- R202, `JSET64_X`: `if dst & src goto +offset`. -/
def execJset64X (dst src : RegNum) (off : BitVec 16) (s : State) : Host.Outcome State Fault Refusal :=
  jump64X .set dst src off s

/-- R203, `JNE64_K`: `if dst != imm goto +offset`. -/
def execJne64K (dst : RegNum) (imm : BitVec 32) (off : BitVec 16) (s : State) : Host.Outcome State Fault Refusal :=
  jump64K .ne dst imm off s

/-- R204, `JNE64_X`: `if dst != src goto +offset`. -/
def execJne64X (dst src : RegNum) (off : BitVec 16) (s : State) : Host.Outcome State Fault Refusal :=
  jump64X .ne dst src off s

/-- R205, `JSGT64_K`: `if dst s> imm goto +offset`. -/
def execJsgt64K (dst : RegNum) (imm : BitVec 32) (off : BitVec 16) (s : State) : Host.Outcome State Fault Refusal :=
  jump64K .sgt dst imm off s

/-- R206, `JSGT64_X`: `if dst s> src goto +offset`. -/
def execJsgt64X (dst src : RegNum) (off : BitVec 16) (s : State) : Host.Outcome State Fault Refusal :=
  jump64X .sgt dst src off s

/-- R207, `JSGE64_K`: `if dst s>= imm goto +offset`. -/
def execJsge64K (dst : RegNum) (imm : BitVec 32) (off : BitVec 16) (s : State) : Host.Outcome State Fault Refusal :=
  jump64K .sge dst imm off s

/-- R208, `JSGE64_X`: `if dst s>= src goto +offset`. -/
def execJsge64X (dst src : RegNum) (off : BitVec 16) (s : State) : Host.Outcome State Fault Refusal :=
  jump64X .sge dst src off s

/-- R209, `JLT64_K`: `if dst < imm goto +offset`. -/
def execJlt64K (dst : RegNum) (imm : BitVec 32) (off : BitVec 16) (s : State) : Host.Outcome State Fault Refusal :=
  jump64K .lt dst imm off s

/-- R210, `JLT64_X`: `if dst < src goto +offset`. -/
def execJlt64X (dst src : RegNum) (off : BitVec 16) (s : State) : Host.Outcome State Fault Refusal :=
  jump64X .lt dst src off s

/-- R211, `JLE64_K`: `if dst <= imm goto +offset`. -/
def execJle64K (dst : RegNum) (imm : BitVec 32) (off : BitVec 16) (s : State) : Host.Outcome State Fault Refusal :=
  jump64K .le dst imm off s

/-- R212, `JLE64_X`: `if dst <= src goto +offset`. -/
def execJle64X (dst src : RegNum) (off : BitVec 16) (s : State) : Host.Outcome State Fault Refusal :=
  jump64X .le dst src off s

/-- R213, `JSLT64_K`: `if dst s< imm goto +offset`. -/
def execJslt64K (dst : RegNum) (imm : BitVec 32) (off : BitVec 16) (s : State) : Host.Outcome State Fault Refusal :=
  jump64K .slt dst imm off s

/-- R214, `JSLT64_X`: `if dst s< src goto +offset`. -/
def execJslt64X (dst src : RegNum) (off : BitVec 16) (s : State) : Host.Outcome State Fault Refusal :=
  jump64X .slt dst src off s

/-- R215, `JSLE64_K`: `if dst s<= imm goto +offset`. -/
def execJsle64K (dst : RegNum) (imm : BitVec 32) (off : BitVec 16) (s : State) : Host.Outcome State Fault Refusal :=
  jump64K .sle dst imm off s

/-- R216, `JSLE64_X`: `if dst s<= src goto +offset`. -/
def execJsle64X (dst src : RegNum) (off : BitVec 16) (s : State) : Host.Outcome State Fault Refusal :=
  jump64X .sle dst src off s

end Sys2Proof.Machine
end

