-- ==== Sys2Proof/Machine/Legacy.lean ====
section
/-! DEFINITION. BPF_ABS and BPF_IND, refused (R322 to R330), and the pseudo slot (R84, R92): encodings that are named and never executed (R322, R92). One meaning for each instruction, over the
shared operations. -/

namespace Sys2Proof.Machine

/-- R323, `LD_ABS_W`: deprecated, implementation-specific; always `IllegalInstruction` (R322). -/
def execLdAbsW (_dst _src : BitVec 4) (_off : BitVec 16) (_imm : BitVec 32) (s : State) : Host.Outcome State Fault Refusal :=
  .fault (illegal s .legacy)

/-- R324, `LD_ABS_H`: deprecated, implementation-specific; always `IllegalInstruction` (R322). -/
def execLdAbsH (_dst _src : BitVec 4) (_off : BitVec 16) (_imm : BitVec 32) (s : State) : Host.Outcome State Fault Refusal :=
  .fault (illegal s .legacy)

/-- R325, `LD_ABS_B`: deprecated, implementation-specific; always `IllegalInstruction` (R322). -/
def execLdAbsB (_dst _src : BitVec 4) (_off : BitVec 16) (_imm : BitVec 32) (s : State) : Host.Outcome State Fault Refusal :=
  .fault (illegal s .legacy)

/-- R326, `LD_ABS_DW`: deprecated, implementation-specific; always `IllegalInstruction` (R322). -/
def execLdAbsDW (_dst _src : BitVec 4) (_off : BitVec 16) (_imm : BitVec 32) (s : State) : Host.Outcome State Fault Refusal :=
  .fault (illegal s .legacy)

/-- R327, `LD_IND_W`: deprecated, implementation-specific; always `IllegalInstruction` (R322). -/
def execLdIndW (_dst _src : BitVec 4) (_off : BitVec 16) (_imm : BitVec 32) (s : State) : Host.Outcome State Fault Refusal :=
  .fault (illegal s .legacy)

/-- R328, `LD_IND_H`: deprecated, implementation-specific; always `IllegalInstruction` (R322). -/
def execLdIndH (_dst _src : BitVec 4) (_off : BitVec 16) (_imm : BitVec 32) (s : State) : Host.Outcome State Fault Refusal :=
  .fault (illegal s .legacy)

/-- R329, `LD_IND_B`: deprecated, implementation-specific; always `IllegalInstruction` (R322). -/
def execLdIndB (_dst _src : BitVec 4) (_off : BitVec 16) (_imm : BitVec 32) (s : State) : Host.Outcome State Fault Refusal :=
  .fault (illegal s .legacy)

/-- R330, `LD_IND_DW`: deprecated, implementation-specific; always `IllegalInstruction` (R322). -/
def execLdIndDW (_dst _src : BitVec 4) (_off : BitVec 16) (_imm : BitVec 32) (s : State) : Host.Outcome State Fault Refusal :=
  .fault (illegal s .legacy)

/-- R84, R92: the second slot of a wide instruction is no instruction at the position of a first slot. -/
def execPseudoSlot (_imm : BitVec 32) (s : State) : Host.Outcome State Fault Refusal :=
  .fault (illegal s .undefinedOpcode)

end Sys2Proof.Machine
end

