-- ==== Sys2Proof/Machine/LoadStore.lean ====
section
/-! DEFINITION. BPF_MEM: regular loads and stores (R260 to R275): loads and stores of 1, 2, 4 and 8 bytes (R260 to R263). One meaning for each instruction, over the
shared operations. -/

namespace Sys2Proof.Machine

/-- R264, `LDX_B`: `dst = *(uint8_t *)(src + offset)`. -/
def execLdxB (dst src : RegNum) (off : BitVec 16) (s : State) : Host.Outcome State Fault Refusal :=
  load 1 dst src off s

/-- R265, `LDX_H`: `dst = *(uint16_t *)(src + offset)`. -/
def execLdxH (dst src : RegNum) (off : BitVec 16) (s : State) : Host.Outcome State Fault Refusal :=
  load 2 dst src off s

/-- R266, `LDX_W`: `dst = *(uint32_t *)(src + offset)`. -/
def execLdxW (dst src : RegNum) (off : BitVec 16) (s : State) : Host.Outcome State Fault Refusal :=
  load 4 dst src off s

/-- R267, `LDX_DW`: `dst = *(uint64_t *)(src + offset)`. -/
def execLdxDW (dst src : RegNum) (off : BitVec 16) (s : State) : Host.Outcome State Fault Refusal :=
  load 8 dst src off s

/-- R268, `ST_B`: `*(uint8_t *)(dst + offset) = imm`. -/
def execStB (dst : RegNum) (off : BitVec 16) (imm : BitVec 32) (s : State) : Host.Outcome State Fault Refusal :=
  storeImm 1 dst off imm s

/-- R269, `ST_H`: `*(uint16_t *)(dst + offset) = imm`. -/
def execStH (dst : RegNum) (off : BitVec 16) (imm : BitVec 32) (s : State) : Host.Outcome State Fault Refusal :=
  storeImm 2 dst off imm s

/-- R270, `ST_W`: `*(uint32_t *)(dst + offset) = imm`. -/
def execStW (dst : RegNum) (off : BitVec 16) (imm : BitVec 32) (s : State) : Host.Outcome State Fault Refusal :=
  storeImm 4 dst off imm s

/-- R271, `ST_DW`: `*(uint64_t *)(dst + offset) = imm`. -/
def execStDW (dst : RegNum) (off : BitVec 16) (imm : BitVec 32) (s : State) : Host.Outcome State Fault Refusal :=
  storeImm 8 dst off imm s

/-- R272, `STX_B`: `*(uint8_t *)(dst + offset) = src`. -/
def execStxB (dst : RegNum) (off : BitVec 16) (src : RegNum) (s : State) : Host.Outcome State Fault Refusal :=
  storeReg 1 dst off src s

/-- R273, `STX_H`: `*(uint16_t *)(dst + offset) = src`. -/
def execStxH (dst : RegNum) (off : BitVec 16) (src : RegNum) (s : State) : Host.Outcome State Fault Refusal :=
  storeReg 2 dst off src s

/-- R274, `STX_W`: `*(uint32_t *)(dst + offset) = src`. -/
def execStxW (dst : RegNum) (off : BitVec 16) (src : RegNum) (s : State) : Host.Outcome State Fault Refusal :=
  storeReg 4 dst off src s

/-- R275, `STX_DW`: `*(uint64_t *)(dst + offset) = src`. -/
def execStxDW (dst : RegNum) (off : BitVec 16) (src : RegNum) (s : State) : Host.Outcome State Fault Refusal :=
  storeReg 8 dst off src s

end Sys2Proof.Machine
end

