-- ==== Sys2Proof/Machine/Dispatch.lean ====
section
/-! DEFINITION. What each instruction does: one arm for each constructor, each one direct call of its meaning. -/

namespace Sys2Proof.Machine

def exec (i : Instr) (s : State) : Host.Outcome State Fault Refusal :=
  match i with
  | .add32K dst imm => Sys2Proof.Machine.execAdd32K dst imm s
  | .add32X dst src => Sys2Proof.Machine.execAdd32X dst src s
  | .sub32K dst imm => Sys2Proof.Machine.execSub32K dst imm s
  | .sub32X dst src => Sys2Proof.Machine.execSub32X dst src s
  | .mul32K dst imm => Sys2Proof.Machine.execMul32K dst imm s
  | .mul32X dst src => Sys2Proof.Machine.execMul32X dst src s
  | .div32K dst imm => Sys2Proof.Machine.execDiv32K dst imm s
  | .div32X dst src => Sys2Proof.Machine.execDiv32X dst src s
  | .or32K dst imm => Sys2Proof.Machine.execOr32K dst imm s
  | .or32X dst src => Sys2Proof.Machine.execOr32X dst src s
  | .and32K dst imm => Sys2Proof.Machine.execAnd32K dst imm s
  | .and32X dst src => Sys2Proof.Machine.execAnd32X dst src s
  | .lsh32K dst imm => Sys2Proof.Machine.execLsh32K dst imm s
  | .lsh32X dst src => Sys2Proof.Machine.execLsh32X dst src s
  | .rsh32K dst imm => Sys2Proof.Machine.execRsh32K dst imm s
  | .rsh32X dst src => Sys2Proof.Machine.execRsh32X dst src s
  | .neg32 dst => Sys2Proof.Machine.execNeg32 dst s
  | .mod32K dst imm => Sys2Proof.Machine.execMod32K dst imm s
  | .mod32X dst src => Sys2Proof.Machine.execMod32X dst src s
  | .xor32K dst imm => Sys2Proof.Machine.execXor32K dst imm s
  | .xor32X dst src => Sys2Proof.Machine.execXor32X dst src s
  | .mov32K dst imm => Sys2Proof.Machine.execMov32K dst imm s
  | .mov32X dst src => Sys2Proof.Machine.execMov32X dst src s
  | .arsh32K dst imm => Sys2Proof.Machine.execArsh32K dst imm s
  | .arsh32X dst src => Sys2Proof.Machine.execArsh32X dst src s
  | .add64K dst imm => Sys2Proof.Machine.execAdd64K dst imm s
  | .add64X dst src => Sys2Proof.Machine.execAdd64X dst src s
  | .sub64K dst imm => Sys2Proof.Machine.execSub64K dst imm s
  | .sub64X dst src => Sys2Proof.Machine.execSub64X dst src s
  | .mul64K dst imm => Sys2Proof.Machine.execMul64K dst imm s
  | .mul64X dst src => Sys2Proof.Machine.execMul64X dst src s
  | .div64K dst imm => Sys2Proof.Machine.execDiv64K dst imm s
  | .div64X dst src => Sys2Proof.Machine.execDiv64X dst src s
  | .or64K dst imm => Sys2Proof.Machine.execOr64K dst imm s
  | .or64X dst src => Sys2Proof.Machine.execOr64X dst src s
  | .and64K dst imm => Sys2Proof.Machine.execAnd64K dst imm s
  | .and64X dst src => Sys2Proof.Machine.execAnd64X dst src s
  | .lsh64K dst imm => Sys2Proof.Machine.execLsh64K dst imm s
  | .lsh64X dst src => Sys2Proof.Machine.execLsh64X dst src s
  | .rsh64K dst imm => Sys2Proof.Machine.execRsh64K dst imm s
  | .rsh64X dst src => Sys2Proof.Machine.execRsh64X dst src s
  | .neg64 dst => Sys2Proof.Machine.execNeg64 dst s
  | .mod64K dst imm => Sys2Proof.Machine.execMod64K dst imm s
  | .mod64X dst src => Sys2Proof.Machine.execMod64X dst src s
  | .xor64K dst imm => Sys2Proof.Machine.execXor64K dst imm s
  | .xor64X dst src => Sys2Proof.Machine.execXor64X dst src s
  | .mov64K dst imm => Sys2Proof.Machine.execMov64K dst imm s
  | .mov64X dst src => Sys2Proof.Machine.execMov64X dst src s
  | .arsh64K dst imm => Sys2Proof.Machine.execArsh64K dst imm s
  | .arsh64X dst src => Sys2Proof.Machine.execArsh64X dst src s
  | .le16 dst => Sys2Proof.Machine.execLe16 dst s
  | .le32 dst => Sys2Proof.Machine.execLe32 dst s
  | .le64 dst => Sys2Proof.Machine.execLe64 dst s
  | .be16 dst => Sys2Proof.Machine.execBe16 dst s
  | .be32 dst => Sys2Proof.Machine.execBe32 dst s
  | .be64 dst => Sys2Proof.Machine.execBe64 dst s
  | .ja off => Sys2Proof.Machine.execJa off s
  | .jeq64K dst imm off => Sys2Proof.Machine.execJeq64K dst imm off s
  | .jeq64X dst src off => Sys2Proof.Machine.execJeq64X dst src off s
  | .jgt64K dst imm off => Sys2Proof.Machine.execJgt64K dst imm off s
  | .jgt64X dst src off => Sys2Proof.Machine.execJgt64X dst src off s
  | .jge64K dst imm off => Sys2Proof.Machine.execJge64K dst imm off s
  | .jge64X dst src off => Sys2Proof.Machine.execJge64X dst src off s
  | .jset64K dst imm off => Sys2Proof.Machine.execJset64K dst imm off s
  | .jset64X dst src off => Sys2Proof.Machine.execJset64X dst src off s
  | .jne64K dst imm off => Sys2Proof.Machine.execJne64K dst imm off s
  | .jne64X dst src off => Sys2Proof.Machine.execJne64X dst src off s
  | .jsgt64K dst imm off => Sys2Proof.Machine.execJsgt64K dst imm off s
  | .jsgt64X dst src off => Sys2Proof.Machine.execJsgt64X dst src off s
  | .jsge64K dst imm off => Sys2Proof.Machine.execJsge64K dst imm off s
  | .jsge64X dst src off => Sys2Proof.Machine.execJsge64X dst src off s
  | .jlt64K dst imm off => Sys2Proof.Machine.execJlt64K dst imm off s
  | .jlt64X dst src off => Sys2Proof.Machine.execJlt64X dst src off s
  | .jle64K dst imm off => Sys2Proof.Machine.execJle64K dst imm off s
  | .jle64X dst src off => Sys2Proof.Machine.execJle64X dst src off s
  | .jslt64K dst imm off => Sys2Proof.Machine.execJslt64K dst imm off s
  | .jslt64X dst src off => Sys2Proof.Machine.execJslt64X dst src off s
  | .jsle64K dst imm off => Sys2Proof.Machine.execJsle64K dst imm off s
  | .jsle64X dst src off => Sys2Proof.Machine.execJsle64X dst src off s
  | .jeq32K dst imm off => Sys2Proof.Machine.execJeq32K dst imm off s
  | .jeq32X dst src off => Sys2Proof.Machine.execJeq32X dst src off s
  | .jgt32K dst imm off => Sys2Proof.Machine.execJgt32K dst imm off s
  | .jgt32X dst src off => Sys2Proof.Machine.execJgt32X dst src off s
  | .jge32K dst imm off => Sys2Proof.Machine.execJge32K dst imm off s
  | .jge32X dst src off => Sys2Proof.Machine.execJge32X dst src off s
  | .jset32K dst imm off => Sys2Proof.Machine.execJset32K dst imm off s
  | .jset32X dst src off => Sys2Proof.Machine.execJset32X dst src off s
  | .jne32K dst imm off => Sys2Proof.Machine.execJne32K dst imm off s
  | .jne32X dst src off => Sys2Proof.Machine.execJne32X dst src off s
  | .jsgt32K dst imm off => Sys2Proof.Machine.execJsgt32K dst imm off s
  | .jsgt32X dst src off => Sys2Proof.Machine.execJsgt32X dst src off s
  | .jsge32K dst imm off => Sys2Proof.Machine.execJsge32K dst imm off s
  | .jsge32X dst src off => Sys2Proof.Machine.execJsge32X dst src off s
  | .jlt32K dst imm off => Sys2Proof.Machine.execJlt32K dst imm off s
  | .jlt32X dst src off => Sys2Proof.Machine.execJlt32X dst src off s
  | .jle32K dst imm off => Sys2Proof.Machine.execJle32K dst imm off s
  | .jle32X dst src off => Sys2Proof.Machine.execJle32X dst src off s
  | .jslt32K dst imm off => Sys2Proof.Machine.execJslt32K dst imm off s
  | .jslt32X dst src off => Sys2Proof.Machine.execJslt32X dst src off s
  | .jsle32K dst imm off => Sys2Proof.Machine.execJsle32K dst imm off s
  | .jsle32X dst src off => Sys2Proof.Machine.execJsle32X dst src off s
  | .callHelper id => Sys2Proof.Machine.execCallHelper id s
  | .callLocal off imm => Sys2Proof.Machine.execCallLocal off imm s
  | .callRuntime id => Sys2Proof.Machine.execCallRuntime id s
  | .exit => Sys2Proof.Machine.execExit s
  | .ldxB dst src off => Sys2Proof.Machine.execLdxB dst src off s
  | .ldxH dst src off => Sys2Proof.Machine.execLdxH dst src off s
  | .ldxW dst src off => Sys2Proof.Machine.execLdxW dst src off s
  | .ldxDW dst src off => Sys2Proof.Machine.execLdxDW dst src off s
  | .stB dst off imm => Sys2Proof.Machine.execStB dst off imm s
  | .stH dst off imm => Sys2Proof.Machine.execStH dst off imm s
  | .stW dst off imm => Sys2Proof.Machine.execStW dst off imm s
  | .stDW dst off imm => Sys2Proof.Machine.execStDW dst off imm s
  | .stxB dst off src => Sys2Proof.Machine.execStxB dst off src s
  | .stxH dst off src => Sys2Proof.Machine.execStxH dst off src s
  | .stxW dst off src => Sys2Proof.Machine.execStxW dst off src s
  | .stxDW dst off src => Sys2Proof.Machine.execStxDW dst off src s
  | .atomicAdd32 dst off src => Sys2Proof.Machine.execAtomicAdd32 dst off src s
  | .atomicFetchAdd32 dst off src => Sys2Proof.Machine.execAtomicFetchAdd32 dst off src s
  | .atomicOr32 dst off src => Sys2Proof.Machine.execAtomicOr32 dst off src s
  | .atomicFetchOr32 dst off src => Sys2Proof.Machine.execAtomicFetchOr32 dst off src s
  | .atomicAnd32 dst off src => Sys2Proof.Machine.execAtomicAnd32 dst off src s
  | .atomicFetchAnd32 dst off src => Sys2Proof.Machine.execAtomicFetchAnd32 dst off src s
  | .atomicXor32 dst off src => Sys2Proof.Machine.execAtomicXor32 dst off src s
  | .atomicFetchXor32 dst off src => Sys2Proof.Machine.execAtomicFetchXor32 dst off src s
  | .atomicXchg32 dst off src => Sys2Proof.Machine.execAtomicXchg32 dst off src s
  | .atomicCmpxchg32 dst off src => Sys2Proof.Machine.execAtomicCmpxchg32 dst off src s
  | .atomicAdd64 dst off src => Sys2Proof.Machine.execAtomicAdd64 dst off src s
  | .atomicFetchAdd64 dst off src => Sys2Proof.Machine.execAtomicFetchAdd64 dst off src s
  | .atomicOr64 dst off src => Sys2Proof.Machine.execAtomicOr64 dst off src s
  | .atomicFetchOr64 dst off src => Sys2Proof.Machine.execAtomicFetchOr64 dst off src s
  | .atomicAnd64 dst off src => Sys2Proof.Machine.execAtomicAnd64 dst off src s
  | .atomicFetchAnd64 dst off src => Sys2Proof.Machine.execAtomicFetchAnd64 dst off src s
  | .atomicXor64 dst off src => Sys2Proof.Machine.execAtomicXor64 dst off src s
  | .atomicFetchXor64 dst off src => Sys2Proof.Machine.execAtomicFetchXor64 dst off src s
  | .atomicXchg64 dst off src => Sys2Proof.Machine.execAtomicXchg64 dst off src s
  | .atomicCmpxchg64 dst off src => Sys2Proof.Machine.execAtomicCmpxchg64 dst off src s
  | .ldImm64 dst imm nextImm => Sys2Proof.Machine.execLdImm64 dst imm nextImm s
  | .ldMapFd dst imm => Sys2Proof.Machine.execLdMapFd dst imm s
  | .ldMapFdValue dst imm nextImm => Sys2Proof.Machine.execLdMapFdValue dst imm nextImm s
  | .ldVarAddr dst imm => Sys2Proof.Machine.execLdVarAddr dst imm s
  | .ldCodeAddr dst imm => Sys2Proof.Machine.execLdCodeAddr dst imm s
  | .ldMapIdx dst imm => Sys2Proof.Machine.execLdMapIdx dst imm s
  | .ldMapIdxValue dst imm nextImm => Sys2Proof.Machine.execLdMapIdxValue dst imm nextImm s
  | .ldAbsW dst src off imm => Sys2Proof.Machine.execLdAbsW dst src off imm s
  | .ldAbsH dst src off imm => Sys2Proof.Machine.execLdAbsH dst src off imm s
  | .ldAbsB dst src off imm => Sys2Proof.Machine.execLdAbsB dst src off imm s
  | .ldAbsDW dst src off imm => Sys2Proof.Machine.execLdAbsDW dst src off imm s
  | .ldIndW dst src off imm => Sys2Proof.Machine.execLdIndW dst src off imm s
  | .ldIndH dst src off imm => Sys2Proof.Machine.execLdIndH dst src off imm s
  | .ldIndB dst src off imm => Sys2Proof.Machine.execLdIndB dst src off imm s
  | .ldIndDW dst src off imm => Sys2Proof.Machine.execLdIndDW dst src off imm s
  | .pseudoSlot imm => Sys2Proof.Machine.execPseudoSlot imm s

end Sys2Proof.Machine
end

