-- ==== Sys2Proof/Machine/Environment.lean ====
section
/-! DEFINITION. The environment (R14, R67): the other programs and the host, which may change shared memory between two
steps of the program, and nothing else. Its moves are an input, the list `env` of the state. -/

namespace Sys2Proof.Machine

/-- Replace bytes of shared regions, in the order given; a byte of no shared region stays (R67). -/
def storeShared (c : Config) (m : Memory) : List (Word × Byte) → Memory
  | [] => m
  | (a, b) :: rest => storeShared c (if isShared c a.toNat then storeByte a.toNat b m else m) rest

/-- The environment's turn before a step (R67, R376): its next move, or none when the list is at its end. -/
def envTurn (s : State) : State :=
  match s.env with
  | [] => { s with during := [] }
  | e :: rest => { s with mem := storeShared s.cfg s.mem e.between, during := e.during, env := rest }

end Sys2Proof.Machine
end

