-- ==== Sys2Proof/Machine/Fetch.lean ====
section
/-! DEFINITION. Fetching the instruction at the pc (R92, R376), and placing one there. -/

namespace Sys2Proof.Machine

/-- The slot of the program at an index, if the index lies in the program (R342). -/
def slotAt (c : Config) (i : Int) : Option Slot := if i < 0 then none else c.program[i.toNat]?

/-- Fetch and decode the instruction at the pc (R376): the fault of a pc outside the program (R342), or of a slot that is
no well-formed instruction (R341). -/
def fetch (s : State) : Except Fault Instr :=
  match slotAt s.cfg s.pc with
  | none => .error (.pcOutOfRange s.pc)
  | some w =>
    match decodeSlots w (slotAt s.cfg (s.pc + 1)) with
    | .ok i => .ok i
    | .error why => .error (.illegalInstruction s.pc w why)

/-- A program with two slots replaced at an index, lengthened by zero slots as far as that needs. -/
def placeSlots (w0 w1 : Slot) : Nat → List Slot → List Slot
  | 0, p => w0 :: w1 :: p.drop 2
  | n + 1, [] => 0 :: placeSlots w0 w1 n []
  | n + 1, w :: p => w :: placeSlots w0 w1 n p

/-- The state with an instruction placed where the next step fetches: `w` holds its first slot in bits 63..0 and its second
in bits 127..64, of which the lowest `nbits` are given. A pc before the program is set to 0, and the run goes on. -/
def placeAtPc (s : State) (nbits w : Nat) : State :=
  { s with
    pc := s.pc.toNat
    status := .running
    cfg := { s.cfg with
      program := placeSlots (BitVec.ofNat 64 (w % 2 ^ nbits)) (BitVec.ofNat 64 (w % 2 ^ nbits / 2 ^ 64)) s.pc.toNat
        s.cfg.program } }

end Sys2Proof.Machine
end

