-- ==== Sys2Proof/Machine/Step.lean ====
section
/-! DEFINITION. One step of the machine (R376). -/

namespace Sys2Proof.Machine

/-- One step (R376): the environment's turn (R67), then fetch, decode and execute one instruction. A run that has ended
takes no further step (R377): the state stays. A recorded fault stays the outcome (R340). -/
def step (s : State) : Host.Outcome State Fault Refusal :=
  match s.status with
  | .ended _ => .next s
  | .faulted f => .fault f
  | .running =>
    match fetch (envTurn s) with
    | .ok i => exec i (envTurn s)
    | .error f => .fault f

/-- The state with the instruction of bits `w` (the lowest `nbits` given) stored where the next step fetches. The program
is loaded from outside the machine (R370); this stands for that load (log 1). -/
def State.withFetchWord (s : State) (nbits w : Nat) : State := placeAtPc s nbits w

end Sys2Proof.Machine
end

