-- ==== Sys2Proof/Machine/Loader.lean ====
section
/-! DEFINITION. The loader that R374 allows: a check of the program text before a run, which refuses a program when a fault
can be decided from the text and the parameters alone. No step depends on it. -/

namespace Sys2Proof.Machine

/-- The instructions of a program in text order, each with the index of its first slot, counted from `n`; the fault
of the first slot that holds none (R92, R341). -/
def scan (n : Nat) : List Slot → Except Fault (List (Nat × Instr))
  | [] => .ok []
  | [w] =>
    match decodeSlots w none with
    | .ok i => .ok [(n, i)]
    | .error why => .error (.illegalInstruction n w why)
  | w :: p :: rest =>
    match decodeSlots w (some p) with
    | .ok i => if i.slots = 2 then (scan (n + 2) rest).map ((n, i) :: ·) else (scan (n + 1) (p :: rest)).map ((n, i) :: ·)
    | .error why => .error (.illegalInstruction n w why)

/-- The displacement of a jump of class BPF_JMP or BPF_JMP32 (R87, R88, R191); none for CALL, EXIT and other classes. -/
def jumpDisp (f : Fields) : Option Int :=
  let cls := f.opcode.extractLsb' 0 3
  let code := f.opcode.extractLsb' 4 4
  if (cls = 5 ∨ cls = 6) ∧ code ≠ 8 ∧ code ≠ 9 then some (offsetSlots f.offset) else none

/-- The displacement of a local call (R251); none for other instructions. -/
def localCallDisp (c : Config) (f : Fields) : Option Int :=
  if f.opcode = 0x85 ∧ f.src = 1 then
    match c.localCallDisp with
    | .offset => some (offsetSlots f.offset)
    | .imm => some f.imm.toInt
  else none

/-- The fault of a jump or local call at slot `n` whose target is no first slot of an instruction (R342, R374). R193 and R374
let a loader refuse such a program and name no fault for it: that this one names the fault which the fetch at the target
would raise, with the target as its pc, is the model's choice (log 16). So a target outside the program gives
`PcOutOfRange`, and one on a pseudo slot `IllegalInstruction(undefined_opcode)` (R342). -/
def targetFault (c : Config) (starts : List Nat) (n : Nat) (disp : Option Int) : Option Fault :=
  match disp with
  | none => none
  | some d =>
    if starts.any fun k => (k : Int) == n + 1 + d then none
    else match slotAt c (n + 1 + d) with
      | none => some (.pcOutOfRange (n + 1 + d))
      | some w => some (.illegalInstruction (n + 1 + d) w .undefinedOpcode)

/-- The fault of an instruction that the parameters rule out (R311, R322, R251), or a call of an unknown function (R346). -/
def instrFault (c : Config) (n : Nat) (w : Slot) (i : Instr) : Option Fault :=
  let need (ok : Bool) (why : IllegalReason) : Option Fault :=
    if ok then none else some (.illegalInstruction n w why)
  match i with
  | .callHelper id => if ((functionsOf c .helper).lookup id).isSome then none else some (.unknownFunction n .helper id)
  | .callRuntime id => if ((functionsOf c .runtime).lookup id).isSome then none else some (.unknownFunction n .runtime id)
  | .callLocal off _ => need (c.localCallDisp == .offset || off == 0) .nonzeroUnusedField
  | .ldMapFd _ imm => need (mapByFd c imm).isSome .unsupportedOptional
  | .ldMapFdValue _ imm _ => need ((mapByFd c imm).bind (mapValueAddr c)).isSome .unsupportedOptional
  | .ldVarAddr _ imm => need (variableAddr c imm).isSome .unsupportedOptional
  | .ldCodeAddr _ imm => need (codeAddr c n imm.toInt).isSome .unsupportedOptional
  | .ldMapIdx _ imm => need (mapByIdx c imm).isSome .unsupportedOptional
  | .ldMapIdxValue _ imm _ => need ((mapByIdx c imm).bind (mapValueAddr c)).isSome .unsupportedOptional
  | .ldAbsW _ _ _ _ | .ldAbsH _ _ _ _ | .ldAbsB _ _ _ _ | .ldAbsDW _ _ _ _ => need false .legacy
  | .ldIndW _ _ _ _ | .ldIndH _ _ _ _ | .ldIndB _ _ _ _ | .ldIndDW _ _ _ _ => need false .legacy
  | .pseudoSlot _ => need false .undefinedOpcode
  | _ => none

/-- Everything the loader finds against one instruction. -/
def slotFault (c : Config) (starts : List Nat) (n : Nat) (i : Instr) : Option Fault :=
  match c.program[n]? with
  | none => some (.pcOutOfRange n)
  | some w =>
    (instrFault c n w i).or ((targetFault c starts n (jumpDisp (Fields.ofSlot w))).or
      (targetFault c starts n (localCallDisp c (Fields.ofSlot w))))

/-- The loader's answer (R374): none when the program is accepted, else why not. A program without a slot, or with more
than `MAX_INSNS`, is refused with the fault of a pc outside the program. -/
def loaderFault (c : Config) : Option Fault :=
  if c.program.length = 0 then some (.pcOutOfRange 0)
  else if (c.maxInsns.map (decide <| c.program.length ≤ ·)).getD true = false then
    some (.pcOutOfRange c.program.length)
  else
    match scan 0 c.program with
    | .error f => some f
    | .ok is => is.findSome? fun e => slotFault c (is.map Prod.fst) e.1 e.2

end Sys2Proof.Machine
end

