-- ==== Sys2Proof/Machine/Run.lean ====
section
/-! DEFINITION. Runs (R370, R377, R378): the state a run has reached after a number of steps, with its fault recorded
if it has met one, its result, and what outlives it. -/

namespace Sys2Proof.Machine

/-- Record the outcome of a step: the next state, or the state as it was with the fault recorded (R340). The count of free
values too is then the one before the faulting step, whatever that step drew; `nextRun` passes over it (log 5, 7). -/
def record (s : State) (o : Host.Outcome State Fault Refusal) : State :=
  match o with
  | .next t => t
  | .fault f => { envTurn s with status := .faulted f }
  | .refused _ => s

/-- The state after at most `n` steps; a run that has ended or faulted stays as it is (R340, R377). A run may go on for
ever (R378), so the number of steps is an argument. -/
def runFor : Nat → State → State
  | 0, s => s
  | n + 1, s =>
    match s.status with
    | .running => runFor n (record s (step s))
    | .ended _ => s
    | .faulted _ => s

/-- The result of a run that has ended without a fault (R37, R377). -/
def resultOf (s : State) : Option Word :=
  match s.status with
  | .ended v => some v
  | .running => none
  | .faulted _ => none

/-- The bytes that outlive a run: those of shared regions (R373). That the bytes of private objects which the arguments
pointed to do not outlive it by themselves is the model's choice, because R373 leaves that to the program type (log 23). -/
def survivingMemory (s : State) : Memory := s.mem.filter fun e => isShared s.cfg e.1

/-- The most free values that one step draws: five arguments and the outcome of a call (R247, R250). A step that faults may have
drawn as many without a trace in the state that `record` keeps. -/
def maxDraws : Nat := 6

/-- The entry state of a later run (R370, R373): of the earlier one it finds the shared regions, and besides them the bytes
`placed`, which the host puts into data memory for it (R375 (4)). A program type whose argument objects outlive a run
is one whose host places their bytes again: the model's choice (log 23). The count of free values goes on past all
that the earlier run drew, the draws of a step that faulted among them, so that the later run draws others than the
earlier one (R379): the model's choice (log 5, 7). The free platform functions keep their values in it: the model's
choice (log 8). -/
def nextRun (s : State) (c : Config) (placed : List (Word × Byte)) (env : List EnvMove) : State :=
  { State.entry c (storeEach (survivingMemory s) placed) env with fresh := s.fresh + maxDraws }

end Sys2Proof.Machine
end

