-- ==== Sys2Proof/Safety.lean ====
section
/-! DEFINITION. What claims about the machine are stated in: the invariant that every step keeps, what one
instruction changes, and what reading registers yields. -/

namespace Sys2Proof.Machine

/-- A register that holds no value has the one form `Reg.none` (R35), so that equal states are equal data. -/
def Reg.canonical (r : Reg) : Prop := r.written = false → r = Reg.none

/-- The saved frame pointers of the call stack (R249, R251): the record pushed at depth d holds `STACK_TOP - 512 * d`. -/
def framesOk (top : Word) : List Frame → Prop
  | [] => True
  | f :: rest =>
    f.s10 = Reg.of (top - 512 * BitVec.ofNat 64 rest.length)
      ∧ f.s6.canonical ∧ f.s7.canonical ∧ f.s8.canonical ∧ f.s9.canonical ∧ framesOk top rest

/-- The invariant of a run (R23, R32, R36, R249, R347): data memory in canonical form, the frame pointer of depth d at
`STACK_TOP - 512 * d`, at most `MAX_CALL_DEPTH` frames, registers without a value in their one form. -/
structure StateInv (s : State) : Prop where
  mem : s.mem.wf = true
  fp : s.x[10] = Reg.of (s.cfg.stackTop - 512 * BitVec.ofNat 64 s.frames.length)
  saved : framesOk s.cfg.stackTop s.frames
  depth : s.frames = [] ∨ s.frames.length < s.cfg.maxCallDepth
  regs : ∀ r : RegNum, (s.x[r]).canonical

/-- What every instruction but CALL and EXIT leaves alone besides registers, pc and memory: the call stack, the status, the
environment's moves and the parameters (R38). -/
structure SameRest (s t : State) : Prop where
  frames : t.frames = s.frames
  status : t.status = s.status
  env : t.env = s.env
  during : t.during = s.during
  cfg : t.cfg = s.cfg

/-- An instruction that changes one register and moves the pc past `n` slots (R27, R124): `dst` gets `v`, every
other register and every byte of memory is as before. `fresh` is the count of free values after its reads. -/
structure WritesReg (s t : State) (dst : RegNum) (v : Word) (n fresh : Nat) : Prop where
  value : t.x[dst] = Reg.of v
  others : ∀ r : RegNum, r ≠ dst → t.x[r] = s.x[r]
  pc : t.pc = s.pc + n
  memory : ∀ a, byteAt t.mem a = byteAt s.mem a
  stored : t.mem = s.mem
  fresh : t.fresh = fresh
  rest : SameRest s t

/-- An instruction that changes no register and no memory and goes to the slot `target` (R192). -/
structure GoesTo (s t : State) (target : Int) (fresh : Nat) : Prop where
  pc : t.pc = target
  regs : t.x = s.x
  memory : ∀ a, byteAt t.mem a = byteAt s.mem a
  stored : t.mem = s.mem
  fresh : t.fresh = fresh
  rest : SameRest s t

/-- The `n` bytes at `a` are the only ones that a store changes, and it leaves the given bytes there (R52, R262). -/
structure StoresAt (s t : State) (a : Nat) (bytes : List Byte) : Prop where
  stored : ∀ i, (h : i < bytes.length) → byteAt t.mem (a + i) = bytes[i]
  others : ∀ b, (b < a ∨ a + bytes.length ≤ b) → byteAt t.mem b = byteAt s.mem b

/-- The byte of a value with the given index counted from the least significant (R52). -/
def byteOf (v : Word) (i : Nat) : Byte := v.extractLsb' (8 * i) 8

/-- The bytes that a store of the low `8 * n` bits of a value leaves, lowest address first (R52). -/
def memoryImage (order : ByteOrder) (n : Nat) (v : Word) : List Byte :=
  match order with
  | .little => (List.range n).map (byteOf v)
  | .big => (List.range n).map fun i => byteOf v (n - 1 - i)

/-- The number that `n` bytes at an address denote (R52): the byte of address `a + i` has weight 256^i on a little-endian
host and 256^(n-1-i) on a big-endian one. -/
def valueAt (order : ByteOrder) (read : Nat → Byte) (a n : Nat) : Nat :=
  match order with
  | .little => ((List.range n).map fun i => (read (a + i)).toNat * 256 ^ i).sum
  | .big => ((List.range n).map fun i => (read (a + i)).toNat * 256 ^ (n - 1 - i)).sum

/-- The register that a fault names when an instruction reads two, not both readable: the lowest-numbered one without a
value (R352). -/
def lowUnreadable (s : State) (r q : RegNum) : RegNum :=
  if canRead s r = true then q else if canRead s q = true then r else min r q

/-- The slots that decode to an instruction are exactly those with the fields `f`, and only where it is legal (R83, R94,
R98). -/
def ReadsFrom (i : Instr) (f : Fields) (legal : Bool) : Prop :=
  ∀ g next, decodeSlots (Fields.toSlot g) next = .ok i ↔ legal = true ∧ g = f

/-- The two slots that decode to a wide instruction are exactly those with the fields `f` and a pseudo instruction that
carries `nextImm` (R84, R92). -/
def ReadsFromWide (i : Instr) (f : Fields) (nextImm : BitVec 32) (legal : Bool) : Prop :=
  ∀ g next, decodeSlots (Fields.toSlot g) next = .ok i ↔
    legal = true ∧ g = f ∧ next = some (Fields.toSlot ⟨0, 0, 0, 0, nextImm⟩)

/-- What a rule of format `ALU_K` says (R98, R124): its encoding, its faults, and x[dst] afterwards, `result` of the old
value and the immediate; none stands for a refused shift (R344). -/
def AluImmRule (mk : RegNum → BitVec 32 → Instr) (opcode : BitVec 8)
    (result : Config → Word → BitVec 32 → Option Word) : Prop :=
  ∀ dst imm, ReadsFrom (mk dst imm) ⟨opcode, regField dst, 0, 0, imm⟩ (writableReg dst) ∧ ∀ s : State,
    (writableReg dst = false → exec (mk dst imm) s = .fault (illegal s .badRegister)) ∧
    (writableReg dst = true → canRead s dst = false → exec (mk dst imm) s = .fault (.unwrittenRegister s.pc dst)) ∧
    (writableReg dst = true → canRead s dst = true → result s.cfg (draw s dst).1 imm = none →
      exec (mk dst imm) s = .fault (.refusedShift s.pc)) ∧
    (∀ v, writableReg dst = true → canRead s dst = true → result s.cfg (draw s dst).1 imm = some v →
      ∃ t, exec (mk dst imm) s = .next t ∧ WritesReg s t dst v 1 (draw s dst).2.fresh)

/-- What a rule of format `ALU_X` says: as `AluImmRule`, with the value of x[src] for the immediate. -/
def AluRegRule (mk : RegNum → RegNum → Instr) (opcode : BitVec 8)
    (result : Config → Word → Word → Option Word) : Prop :=
  ∀ dst src, ReadsFrom (mk dst src) ⟨opcode, regField dst, regField src, 0, 0⟩ (writableReg dst) ∧ ∀ s : State,
    (writableReg dst = false → exec (mk dst src) s = .fault (illegal s .badRegister)) ∧
    (writableReg dst = true → ¬ (canRead s dst = true ∧ canRead s src = true) →
      exec (mk dst src) s = .fault (.unwrittenRegister s.pc (lowUnreadable s dst src))) ∧
    (writableReg dst = true → canRead s dst = true → canRead s src = true →
      result s.cfg (draw s dst).1 (draw (draw s dst).2 src).1 = none →
      exec (mk dst src) s = .fault (.refusedShift s.pc)) ∧
    (∀ v, writableReg dst = true → canRead s dst = true → canRead s src = true →
      result s.cfg (draw s dst).1 (draw (draw s dst).2 src).1 = some v →
      ∃ t, exec (mk dst src) s = .next t ∧ WritesReg s t dst v 1 (draw (draw s dst).2 src).2.fresh)

/-- What a rule says that changes one register in place (formats `ALU_UN` and `END`): x[dst] becomes `result` of its old
value; `selector` is what stands in `imm`. -/
def UnaryRule (mk : RegNum → Instr) (opcode : BitVec 8) (selector : BitVec 32) (result : Config → Word → Word) : Prop :=
  ∀ dst, ReadsFrom (mk dst) ⟨opcode, regField dst, 0, 0, selector⟩ (writableReg dst) ∧ ∀ s : State,
    (writableReg dst = false → exec (mk dst) s = .fault (illegal s .badRegister)) ∧
    (writableReg dst = true → canRead s dst = false → exec (mk dst) s = .fault (.unwrittenRegister s.pc dst)) ∧
    (writableReg dst = true → canRead s dst = true →
      ∃ t, exec (mk dst) s = .next t ∧ WritesReg s t dst (result s.cfg (draw s dst).1) 1 (draw s dst).2.fresh)

/-- What a rule of format `JCC_K` says (R190 to R193): its encoding, its fault, and where the pc goes. -/
def JumpImmRule (mk : RegNum → BitVec 32 → BitVec 16 → Instr) (opcode : BitVec 8)
    (taken : Word → BitVec 32 → Bool) : Prop :=
  ∀ dst imm off, ReadsFrom (mk dst imm off) ⟨opcode, regField dst, 0, off, imm⟩ true ∧ ∀ s : State,
    (canRead s dst = false → exec (mk dst imm off) s = .fault (.unwrittenRegister s.pc dst)) ∧
    (canRead s dst = true → ∃ t, exec (mk dst imm off) s = .next t ∧
      GoesTo s t (if taken (draw s dst).1 imm = true then s.pc + 1 + off.toInt else s.pc + 1) (draw s dst).2.fresh)

/-- What a rule of format `JCC_X` says: as `JumpImmRule`, with the value of x[src] for the immediate. -/
def JumpRegRule (mk : RegNum → RegNum → BitVec 16 → Instr) (opcode : BitVec 8)
    (taken : Word → Word → Bool) : Prop :=
  ∀ dst src off, ReadsFrom (mk dst src off) ⟨opcode, regField dst, regField src, off, 0⟩ true ∧ ∀ s : State,
    (¬ (canRead s dst = true ∧ canRead s src = true) →
      exec (mk dst src off) s = .fault (.unwrittenRegister s.pc (lowUnreadable s dst src))) ∧
    (canRead s dst = true → canRead s src = true → ∃ t, exec (mk dst src off) s = .next t ∧
      GoesTo s t (if taken (draw s dst).1 (draw (draw s dst).2 src).1 = true then s.pc + 1 + off.toInt else s.pc + 1)
        (draw (draw s dst).2 src).2.fresh)

/-- The alignment that a regular access needs (R56). -/
def RegularAligned (c : Config) (a : Word) (n : Nat) : Prop := c.strictAlign = true → a.toNat % n = 0

/-- The `n` bytes at `a` lie in one region with the permissions needed, without wrapping (R52, R57). -/
def Admitted (c : Config) (a : Word) (n : Nat) (permitted : Region → Bool) : Prop :=
  a.toNat + n ≤ 2 ^ 64 ∧ ∃ r ∈ c.regions, permitted r = true ∧ r.base ≤ a.toNat ∧ a.toNat + n ≤ r.base + r.size

/-- The byte that a regular load of `n` bytes at `a` finds at an address (R60): memory's own when the load is
indivisible, else of a shared byte any value it had during the step. -/
def loadedByte (s : State) (a : Word) (n : Nat) : Nat → Byte :=
  if s.cfg.regularAccessAtomic = true ∧ a.toNat % n = 0 then byteAt s.mem else tornByteAt s

/-- What a rule of format `LDX` says (R260, R261, R263): its encoding, its faults in order, and the value loaded. -/
def LoadRule (mk : RegNum → RegNum → BitVec 16 → Instr) (opcode : BitVec 8) (n : Nat) : Prop :=
  ∀ dst src off, ReadsFrom (mk dst src off) ⟨opcode, regField dst, regField src, off, 0⟩ (writableReg dst) ∧
    ∀ (s : State) (ea : Word), ea = (draw s src).1 + off.signExtend 64 →
    (writableReg dst = false → exec (mk dst src off) s = .fault (illegal s .badRegister)) ∧
    (writableReg dst = true → canRead s src = false → exec (mk dst src off) s = .fault (.unwrittenRegister s.pc src)) ∧
    (writableReg dst = true → canRead s src = true → ¬ RegularAligned s.cfg ea n →
      exec (mk dst src off) s = .fault (.memFault s.pc ea n .align)) ∧
    (writableReg dst = true → canRead s src = true → RegularAligned s.cfg ea n → ¬ Admitted s.cfg ea n Region.readable →
      exec (mk dst src off) s = .fault (.memFault s.pc ea n .read)) ∧
    (writableReg dst = true → canRead s src = true → RegularAligned s.cfg ea n → Admitted s.cfg ea n Region.readable →
      ∃ t v, exec (mk dst src off) s = .next t ∧ WritesReg s t dst v 1 (draw s src).2.fresh ∧
        v.toNat = valueAt s.cfg.hostEndian (loadedByte s ea n) ea.toNat n)

/-- An instruction that stores bytes at `a`, changes no register and passes one slot. -/
structure WritesMemory (s t : State) (a : Nat) (bytes : List Byte) (fresh : Nat) : Prop where
  stores : StoresAt s t a bytes
  regs : t.x = s.x
  pc : t.pc = s.pc + 1
  fresh : t.fresh = fresh
  rest : SameRest s t

/-- What a rule of format `ST` says (R260, R262, R263): the low bytes of the sign-extended immediate are stored. -/
def StoreImmRule (mk : RegNum → BitVec 16 → BitVec 32 → Instr) (opcode : BitVec 8) (n : Nat) : Prop :=
  ∀ dst off imm, ReadsFrom (mk dst off imm) ⟨opcode, regField dst, 0, off, imm⟩ true ∧
    ∀ (s : State) (ea : Word), ea = (draw s dst).1 + off.signExtend 64 →
    (canRead s dst = false → exec (mk dst off imm) s = .fault (.unwrittenRegister s.pc dst)) ∧
    (canRead s dst = true → ¬ RegularAligned s.cfg ea n →
      exec (mk dst off imm) s = .fault (.memFault s.pc ea n .align)) ∧
    (canRead s dst = true → RegularAligned s.cfg ea n → ¬ Admitted s.cfg ea n Region.writable →
      exec (mk dst off imm) s = .fault (.memFault s.pc ea n .write)) ∧
    (canRead s dst = true → RegularAligned s.cfg ea n → Admitted s.cfg ea n Region.writable →
      ∃ t, exec (mk dst off imm) s = .next t ∧
        WritesMemory s t ea.toNat (memoryImage s.cfg.hostEndian n (imm.signExtend 64)) (draw s dst).2.fresh)

/-- What a rule of format `STX` with mode BPF_MEM says: the low bytes of x[src] are stored. -/
def StoreRegRule (mk : RegNum → BitVec 16 → RegNum → Instr) (opcode : BitVec 8) (n : Nat) : Prop :=
  ∀ dst off src, ReadsFrom (mk dst off src) ⟨opcode, regField dst, regField src, off, 0⟩ true ∧
    ∀ (s : State) (ea : Word), ea = (draw s dst).1 + off.signExtend 64 →
    (¬ (canRead s dst = true ∧ canRead s src = true) →
      exec (mk dst off src) s = .fault (.unwrittenRegister s.pc (lowUnreadable s dst src))) ∧
    (canRead s dst = true → canRead s src = true → ¬ RegularAligned s.cfg ea n →
      exec (mk dst off src) s = .fault (.memFault s.pc ea n .align)) ∧
    (canRead s dst = true → canRead s src = true → RegularAligned s.cfg ea n → ¬ Admitted s.cfg ea n Region.writable →
      exec (mk dst off src) s = .fault (.memFault s.pc ea n .write)) ∧
    (canRead s dst = true → canRead s src = true → RegularAligned s.cfg ea n → Admitted s.cfg ea n Region.writable →
      ∃ t, exec (mk dst off src) s = .next t ∧
        WritesMemory s t ea.toNat (memoryImage s.cfg.hostEndian n (draw (draw s dst).2 src).1)
          (draw (draw s dst).2 src).2.fresh)

/-- A region that permits an atomic operation (R57). -/
def Region.readWrite (r : Region) : Bool := r.readable && r.writable

/-- What a rule of format `ATOMIC` says, but for compare and exchange (R280 to R284): its encoding, its faults in order, what
memory holds afterwards, and, where it fetches, the old value in x[src]. -/
def AtomicRule (mk : RegNum → BitVec 16 → RegNum → Instr) (opcode : BitVec 8) (selector : BitVec 32) (n : Nat)
    (fetches : Bool) (op : Word → Word → Word) : Prop :=
  ∀ dst off src,
    ReadsFrom (mk dst off src) ⟨opcode, regField dst, regField src, off, selector⟩ (!fetches || writableReg src) ∧
    ∀ (s : State) (ea : Word), ea = (draw s dst).1 + off.signExtend 64 →
    (fetches = true → writableReg src = false → exec (mk dst off src) s = .fault (illegal s .badRegister)) ∧
    ((!fetches || writableReg src) = true → ¬ (canRead s dst = true ∧ canRead s src = true) →
      exec (mk dst off src) s = .fault (.unwrittenRegister s.pc (lowUnreadable s dst src))) ∧
    ((!fetches || writableReg src) = true → canRead s dst = true → canRead s src = true → ea.toNat % n ≠ 0 →
      exec (mk dst off src) s = .fault (.memFault s.pc ea n .align)) ∧
    ((!fetches || writableReg src) = true → canRead s dst = true → canRead s src = true → ea.toNat % n = 0 →
      ¬ Admitted s.cfg ea n Region.readWrite → exec (mk dst off src) s = .fault (.memFault s.pc ea n .atomic)) ∧
    ((!fetches || writableReg src) = true → canRead s dst = true → canRead s src = true → ea.toNat % n = 0 →
      Admitted s.cfg ea n Region.readWrite →
      ∃ t old, exec (mk dst off src) s = .next t ∧
        old.toNat = valueAt s.cfg.hostEndian (byteAt s.mem) ea.toNat n ∧
        StoresAt s t ea.toNat (memoryImage s.cfg.hostEndian n (op old (draw (draw s dst).2 src).1)) ∧
        (fetches = true → t.x[src] = Reg.of old) ∧
        (∀ r : RegNum, ¬ (fetches = true ∧ r = src) → t.x[r] = s.x[r]) ∧
        t.pc = s.pc + 1 ∧ t.fresh = (draw (draw s dst).2 src).2.fresh ∧ SameRest s t)

/-- What the rules of compare and exchange say (R295, R305): its encoding, its faults, and, whether or not memory equals the
low bits of x[0], what memory and x[0] hold afterwards. -/
def CompareExchangeRule (mk : RegNum → BitVec 16 → RegNum → Instr) (opcode : BitVec 8) (n : Nat) : Prop :=
  ∀ dst off src, ReadsFrom (mk dst off src) ⟨opcode, regField dst, regField src, off, 0xf1⟩ true ∧
    ∀ (s : State) (ea : Word), ea = (draw s dst).1 + off.signExtend 64 →
    ((canRead s dst = false ∨ canRead s src = false ∨ canRead s 0 = false) →
      ∃ r ∈ [dst, src, 0], canRead s r = false ∧ (∀ q ∈ [dst, src, 0], canRead s q = false → r ≤ q) ∧
        exec (mk dst off src) s = .fault (.unwrittenRegister s.pc r)) ∧
    (canRead s dst = true → canRead s src = true → canRead s 0 = true → ea.toNat % n ≠ 0 →
      exec (mk dst off src) s = .fault (.memFault s.pc ea n .align)) ∧
    (canRead s dst = true → canRead s src = true → canRead s 0 = true → ea.toNat % n = 0 →
      ¬ Admitted s.cfg ea n Region.readWrite → exec (mk dst off src) s = .fault (.memFault s.pc ea n .atomic)) ∧
    (canRead s dst = true → canRead s src = true → canRead s 0 = true → ea.toNat % n = 0 →
      Admitted s.cfg ea n Region.readWrite →
      ∃ t old, exec (mk dst off src) s = .next t ∧
        old.toNat = valueAt s.cfg.hostEndian (byteAt s.mem) ea.toNat n ∧
        (if old.toNat = (draw (draw (draw s dst).2 src).2 0).1.toNat % 2 ^ (8 * n) then
          StoresAt s t ea.toNat (memoryImage s.cfg.hostEndian n (draw (draw s dst).2 src).1)
        else ∀ a, byteAt t.mem a = byteAt s.mem a) ∧
        t.x[0] = Reg.of old ∧ (∀ r : RegNum, r ≠ 0 → t.x[r] = s.x[r]) ∧
        t.pc = s.pc + 1 ∧ t.fresh = (draw (draw (draw s dst).2 src).2 0).2.fresh ∧ SameRest s t)

/-- The byte at an address after the writes of a function: the last one to that address, else what was there (R247). -/
def byteAfterWrites (s : State) (ws : List (Word × Byte)) (a : Nat) : Byte :=
  match ws.reverse.find? fun w => w.1.toNat == a with
  | some w => w.2
  | none => byteAt s.mem a

/-- The description of a function that copies a3 bytes from a2 to a1 and returns a3, and that fails if it may not read the
one or write the other (R247, R348). -/
def copyFunction : FunDesc :=
  ⟨3, true, [⟨.const 1,
    [⟨.arg 2, [⟨.arg 2, .op .add (.arg 0) .index, .load 1 (.op .add (.arg 1) .index)⟩],
      .cond (.op .and (.readable (.arg 2) (.arg 1)) (.writable (.arg 2) (.arg 0))) (.const 0) (.const 1)⟩]⟩]⟩

/-- What the rules of the helper and runtime calls say (R247, R248, R250, R252): the encoding, the faults in order, and the
state after the call, whatever outcome the function has. -/
def FunctionCallRule (mk : BitVec 32 → Instr) (space : CallSpace) (selector : BitVec 4) : Prop :=
  ∀ id, ReadsFrom (mk id) ⟨0x85, 0, selector, 0, id⟩ true ∧ ∀ s : State,
    ((functionsOf s.cfg space).lookup id = none → exec (mk id) s = .fault (.unknownFunction s.pc space id)) ∧
    ∀ f, (functionsOf s.cfg space).lookup id = some f →
      ((∃ r ∈ argRegs f.arity, canRead s r = false) →
        ∃ r ∈ argRegs f.arity, canRead s r = false ∧ (∀ q ∈ argRegs f.arity, canRead s q = false → r ≤ q) ∧
          exec (mk id) s = .fault (.unwrittenRegister s.pc r)) ∧
      ((∀ r ∈ argRegs f.arity, canRead s r = true) → ∀ o, o = functionOutcome s.cfg f space id
            (drawAll s (argRegs f.arity)).1 s.mem (drawAll s (argRegs f.arity)).2.fresh →
        (f.canFail = true → o.fails = true → exec (mk id) s = .fault (.helperFault s.pc space id)) ∧
        (¬ (f.canFail = true ∧ o.fails = true) →
          ∃ t, exec (mk id) s = .next t ∧ t.x[0] = Reg.of o.ret ∧
            (∀ r : RegNum, 1 ≤ r → r ≤ 5 → t.x[r] = Reg.none) ∧ (∀ r : RegNum, 6 ≤ r → t.x[r] = s.x[r]) ∧
            (∀ a, byteAt t.mem a = byteAfterWrites s o.writes a) ∧ t.pc = s.pc + 1 ∧ SameRest s t))

/-- What a rule says of a 64-bit immediate form (R310 to R312): its encoding, when it is illegal, and x[dst] afterwards.
`value` is none where the form is not supported or the platform defines no value. -/
def WideRule (i : Instr) (dst : RegNum) (f : Fields) (nextImm : BitVec 32) (value : State → Option Word) : Prop :=
  ReadsFromWide i f nextImm (writableReg dst) ∧ ∀ s : State,
    (writableReg dst = false → ∃ why, exec i s = .fault (illegal s why)) ∧
    (value s = none → exec i s = .fault (illegal s .unsupportedOptional)) ∧
    (∀ v, writableReg dst = true → value s = some v →
      ∃ t, exec i s = .next t ∧ WritesReg s t dst v 2 s.fresh)

/-- What a rule says of an instruction that is named and never executed (R322): its encoding, with no field checked,
and that it always faults. -/
def RefusedRule (mk : BitVec 4 → BitVec 4 → BitVec 16 → BitVec 32 → Instr) (opcode : BitVec 8) : Prop :=
  ∀ dst src off imm, ReadsFrom (mk dst src off imm) ⟨opcode, dst, src, off, imm⟩ true ∧
    ∀ s : State, exec (mk dst src off imm) s = .fault (illegal s .legacy)

end Sys2Proof.Machine
end

