-- ==== Sys2Proof/Certificates/Slice0/Obligations.lean ====
section
/-! DEFINITION. The statements about the machine that the provers prove. Each docstring names the rules of the spec that it
formalises, or what it rests on. The predicates they use stand in `Sys2Proof/Safety.lean`. -/

open Sys2Proof Sys2Proof.Machine

/-! ## Instructions, family by family: encoding, faults, result and frame -/

/-- The twelve operations of class BPF_ALU with an immediate (R125 to R148): the encoding, the illegal write of R10, the read of a
register without a value, the refused shift, and the result with its frame, for every value of `DIVMOD_SIGNED`,
`SHIFT_OVERWIDTH` and `UNWRITTEN_READ`. What LSH, RSH and ARSH do for a count of the width or more,
masked or refused, is the spec's decision D6 (R123, R137, R138, R344; log 21: for LSH "the source is silent"). -/
def Obligations.Alu32ImmediateForms : Prop :=
  AluImmRule .add32K 0x04#8 (fun _ a imm => some (zext64 ((lo32 a) + imm))) ∧
  AluImmRule .sub32K 0x14#8 (fun _ a imm => some (zext64 ((lo32 a) - imm))) ∧
  AluImmRule .mul32K 0x24#8 (fun _ a imm => some (zext64 ((lo32 a) * imm))) ∧
  AluImmRule .div32K 0x34#8 (fun c a imm => some (zext64 (if imm = 0 then 0 else match c.divmodSigned with
      | .unsigned => (lo32 a) / imm
      | .signed => (lo32 a).sdiv imm))) ∧
  AluImmRule .or32K 0x44#8 (fun _ a imm => some (zext64 ((lo32 a) ||| imm))) ∧
  AluImmRule .and32K 0x54#8 (fun _ a imm => some (zext64 ((lo32 a) &&& imm))) ∧
  AluImmRule .lsh32K 0x64#8 (fun c a imm => match c.shiftOverwidth with
      | .mask => some (zext64 ((lo32 a) <<< (imm.toNat % 32)))
      | .refuse => if imm.toNat < 32 then some (zext64 ((lo32 a) <<< (imm.toNat))) else none) ∧
  AluImmRule .rsh32K 0x74#8 (fun c a imm => match c.shiftOverwidth with
      | .mask => some (zext64 ((lo32 a) >>> (imm.toNat % 32)))
      | .refuse => if imm.toNat < 32 then some (zext64 ((lo32 a) >>> (imm.toNat))) else none) ∧
  AluImmRule .mod32K 0x94#8 (fun c a imm => some (zext64 (if imm = 0 then (lo32 a) else match c.divmodSigned with
      | .unsigned => (lo32 a) % imm
      | .signed => (lo32 a).srem imm))) ∧
  AluImmRule .xor32K 0xa4#8 (fun _ a imm => some (zext64 ((lo32 a) ^^^ imm))) ∧
  AluImmRule .arsh32K 0xc4#8 (fun c a imm => match c.shiftOverwidth with
      | .mask => some (zext64 ((lo32 a).sshiftRight (imm.toNat % 32)))
      | .refuse => if imm.toNat < 32 then some (zext64 ((lo32 a).sshiftRight (imm.toNat))) else none) ∧
  (∀ dst imm, ReadsFrom (.mov32K dst imm) ⟨0xb4#8, regField dst, 0, 0, imm⟩ (writableReg dst) ∧ ∀ s : State,
      (writableReg dst = false → exec (.mov32K dst imm) s = .fault (illegal s .badRegister)) ∧
      (writableReg dst = true → ∃ t, exec (.mov32K dst imm) s = .next t ∧ WritesReg s t dst (zext64 imm) 1 s.fresh))

/-- The twelve operations of class BPF_ALU with a register (R126 to R149): the encoding, the illegal write of R10, the read of a
register without a value, the refused shift, and the result with its frame, for every value of `DIVMOD_SIGNED`,
`SHIFT_OVERWIDTH` and `UNWRITTEN_READ`. What LSH, RSH and ARSH do for a count of the width or more,
masked or refused, is the spec's decision D6 (R123, R137, R138, R344; log 21: for LSH "the source is silent"). -/
def Obligations.Alu32RegisterForms : Prop :=
  AluRegRule .add32X 0x0c#8 (fun _ a b => some (zext64 ((lo32 a) + (lo32 b)))) ∧
  AluRegRule .sub32X 0x1c#8 (fun _ a b => some (zext64 ((lo32 a) - (lo32 b)))) ∧
  AluRegRule .mul32X 0x2c#8 (fun _ a b => some (zext64 ((lo32 a) * (lo32 b)))) ∧
  AluRegRule .div32X 0x3c#8 (fun c a b => some (zext64 (if (lo32 b) = 0 then 0 else match c.divmodSigned with
      | .unsigned => (lo32 a) / (lo32 b)
      | .signed => (lo32 a).sdiv (lo32 b)))) ∧
  AluRegRule .or32X 0x4c#8 (fun _ a b => some (zext64 ((lo32 a) ||| (lo32 b)))) ∧
  AluRegRule .and32X 0x5c#8 (fun _ a b => some (zext64 ((lo32 a) &&& (lo32 b)))) ∧
  AluRegRule .lsh32X 0x6c#8 (fun c a b => match c.shiftOverwidth with
      | .mask => some (zext64 ((lo32 a) <<< ((lo32 b).toNat % 32)))
      | .refuse => if (lo32 b).toNat < 32 then some (zext64 ((lo32 a) <<< ((lo32 b).toNat))) else none) ∧
  AluRegRule .rsh32X 0x7c#8 (fun c a b => match c.shiftOverwidth with
      | .mask => some (zext64 ((lo32 a) >>> ((lo32 b).toNat % 32)))
      | .refuse => if (lo32 b).toNat < 32 then some (zext64 ((lo32 a) >>> ((lo32 b).toNat))) else none) ∧
  AluRegRule .mod32X 0x9c#8 (fun c a b => some (zext64 (if (lo32 b) = 0 then (lo32 a) else match c.divmodSigned with
      | .unsigned => (lo32 a) % (lo32 b)
      | .signed => (lo32 a).srem (lo32 b)))) ∧
  AluRegRule .xor32X 0xac#8 (fun _ a b => some (zext64 ((lo32 a) ^^^ (lo32 b)))) ∧
  AluRegRule .arsh32X 0xcc#8 (fun c a b => match c.shiftOverwidth with
      | .mask => some (zext64 ((lo32 a).sshiftRight ((lo32 b).toNat % 32)))
      | .refuse => if (lo32 b).toNat < 32 then some (zext64 ((lo32 a).sshiftRight ((lo32 b).toNat))) else none) ∧
  (∀ dst src, ReadsFrom (.mov32X dst src) ⟨0xbc#8, regField dst, regField src, 0, 0⟩ (writableReg dst) ∧ ∀ s : State,
      (writableReg dst = false → exec (.mov32X dst src) s = .fault (illegal s .badRegister)) ∧
      (writableReg dst = true → canRead s src = false → exec (.mov32X dst src) s = .fault (.unwrittenRegister s.pc src)) ∧
      (writableReg dst = true → canRead s src = true → ∃ t, exec (.mov32X dst src) s = .next t ∧
        WritesReg s t dst (zext64 (lo32 (draw s src).1)) 1 (draw s src).2.fresh))

/-- The twelve operations of class BPF_ALU64 with an immediate (R155 to R178): the encoding, the illegal write of R10, the read of a
register without a value, the refused shift, and the result with its frame, for every value of `DIVMOD_SIGNED`,
`SHIFT_OVERWIDTH` and `UNWRITTEN_READ`. What LSH, RSH and ARSH do for a count of the width or more,
masked or refused, is the spec's decision D6 (R153, R167, R168, R344; log 21: for LSH "the source is silent"). -/
def Obligations.Alu64ImmediateForms : Prop :=
  AluImmRule .add64K 0x07#8 (fun _ a imm => some (a + (sext64 imm))) ∧
  AluImmRule .sub64K 0x17#8 (fun _ a imm => some (a - (sext64 imm))) ∧
  AluImmRule .mul64K 0x27#8 (fun _ a imm => some (a * (sext64 imm))) ∧
  AluImmRule .div64K 0x37#8 (fun c a imm => some (if (sext64 imm) = 0 then 0 else match c.divmodSigned with
      | .unsigned => a / (sext64 imm)
      | .signed => a.sdiv (sext64 imm))) ∧
  AluImmRule .or64K 0x47#8 (fun _ a imm => some (a ||| (sext64 imm))) ∧
  AluImmRule .and64K 0x57#8 (fun _ a imm => some (a &&& (sext64 imm))) ∧
  AluImmRule .lsh64K 0x67#8 (fun c a imm => match c.shiftOverwidth with
      | .mask => some (a <<< ((sext64 imm).toNat % 64))
      | .refuse => if (sext64 imm).toNat < 64 then some (a <<< ((sext64 imm).toNat)) else none) ∧
  AluImmRule .rsh64K 0x77#8 (fun c a imm => match c.shiftOverwidth with
      | .mask => some (a >>> ((sext64 imm).toNat % 64))
      | .refuse => if (sext64 imm).toNat < 64 then some (a >>> ((sext64 imm).toNat)) else none) ∧
  AluImmRule .mod64K 0x97#8 (fun c a imm => some (if (sext64 imm) = 0 then a else match c.divmodSigned with
      | .unsigned => a % (sext64 imm)
      | .signed => a.srem (sext64 imm))) ∧
  AluImmRule .xor64K 0xa7#8 (fun _ a imm => some (a ^^^ (sext64 imm))) ∧
  AluImmRule .arsh64K 0xc7#8 (fun c a imm => match c.shiftOverwidth with
      | .mask => some (a.sshiftRight ((sext64 imm).toNat % 64))
      | .refuse => if (sext64 imm).toNat < 64 then some (a.sshiftRight ((sext64 imm).toNat)) else none) ∧
  (∀ dst imm, ReadsFrom (.mov64K dst imm) ⟨0xb7#8, regField dst, 0, 0, imm⟩ (writableReg dst) ∧ ∀ s : State,
      (writableReg dst = false → exec (.mov64K dst imm) s = .fault (illegal s .badRegister)) ∧
      (writableReg dst = true → ∃ t, exec (.mov64K dst imm) s = .next t ∧ WritesReg s t dst (sext64 imm) 1 s.fresh))

/-- The twelve operations of class BPF_ALU64 with a register (R156 to R179): the encoding, the illegal write of R10, the read of a
register without a value, the refused shift, and the result with its frame, for every value of `DIVMOD_SIGNED`,
`SHIFT_OVERWIDTH` and `UNWRITTEN_READ`. What LSH, RSH and ARSH do for a count of the width or more,
masked or refused, is the spec's decision D6 (R153, R167, R168, R344; log 21: for LSH "the source is silent"). -/
def Obligations.Alu64RegisterForms : Prop :=
  AluRegRule .add64X 0x0f#8 (fun _ a b => some (a + b)) ∧
  AluRegRule .sub64X 0x1f#8 (fun _ a b => some (a - b)) ∧
  AluRegRule .mul64X 0x2f#8 (fun _ a b => some (a * b)) ∧
  AluRegRule .div64X 0x3f#8 (fun c a b => some (if b = 0 then 0 else match c.divmodSigned with
      | .unsigned => a / b
      | .signed => a.sdiv b)) ∧
  AluRegRule .or64X 0x4f#8 (fun _ a b => some (a ||| b)) ∧
  AluRegRule .and64X 0x5f#8 (fun _ a b => some (a &&& b)) ∧
  AluRegRule .lsh64X 0x6f#8 (fun c a b => match c.shiftOverwidth with
      | .mask => some (a <<< (b.toNat % 64))
      | .refuse => if b.toNat < 64 then some (a <<< (b.toNat)) else none) ∧
  AluRegRule .rsh64X 0x7f#8 (fun c a b => match c.shiftOverwidth with
      | .mask => some (a >>> (b.toNat % 64))
      | .refuse => if b.toNat < 64 then some (a >>> (b.toNat)) else none) ∧
  AluRegRule .mod64X 0x9f#8 (fun c a b => some (if b = 0 then a else match c.divmodSigned with
      | .unsigned => a % b
      | .signed => a.srem b)) ∧
  AluRegRule .xor64X 0xaf#8 (fun _ a b => some (a ^^^ b)) ∧
  AluRegRule .arsh64X 0xcf#8 (fun c a b => match c.shiftOverwidth with
      | .mask => some (a.sshiftRight (b.toNat % 64))
      | .refuse => if b.toNat < 64 then some (a.sshiftRight (b.toNat)) else none) ∧
  (∀ dst src, ReadsFrom (.mov64X dst src) ⟨0xbf#8, regField dst, regField src, 0, 0⟩ (writableReg dst) ∧ ∀ s : State,
      (writableReg dst = false → exec (.mov64X dst src) s = .fault (illegal s .badRegister)) ∧
      (writableReg dst = true → canRead s src = false → exec (.mov64X dst src) s = .fault (.unwrittenRegister s.pc src)) ∧
      (writableReg dst = true → canRead s src = true → ∃ t, exec (.mov64X dst src) s = .next t ∧
        WritesReg s t dst ((draw s src).1) 1 (draw s src).2.fresh))

/-- NEG32 and NEG64 (R141, R171): two's complement negation on 32 or 64 bits. -/
def Obligations.NegationForms : Prop :=
  UnaryRule .neg32 0x84#8 0 (fun _ a => zext64 (0 - lo32 a)) ∧
  UnaryRule .neg64 0x87#8 0 (fun _ a => 0 - a)

/-- The six byte swaps (R183 to R188): the low N bits, as they are or with their bytes reversed, zero-extended. -/
def Obligations.ByteSwapForms : Prop :=
  UnaryRule .le16 0xd4#8 16 (fun c a => if c.hostEndian = .big then (byteOf a 0 ++ byteOf a 1).setWidth 64
    else a.setWidth 16 |>.setWidth 64) ∧
  UnaryRule .le32 0xd4#8 32 (fun c a => if c.hostEndian = .big then (byteOf a 0 ++ byteOf a 1 ++ byteOf a 2 ++ byteOf a 3).setWidth 64
    else a.setWidth 32 |>.setWidth 64) ∧
  UnaryRule .le64 0xd4#8 64 (fun c a => if c.hostEndian = .big then (byteOf a 0 ++ byteOf a 1 ++ byteOf a 2 ++ byteOf a 3 ++ byteOf a 4 ++ byteOf a 5 ++ byteOf a 6 ++ byteOf a 7).setWidth 64
    else a.setWidth 64 |>.setWidth 64) ∧
  UnaryRule .be16 0xdc#8 16 (fun c a => if c.hostEndian = .little then (byteOf a 0 ++ byteOf a 1).setWidth 64
    else a.setWidth 16 |>.setWidth 64) ∧
  UnaryRule .be32 0xdc#8 32 (fun c a => if c.hostEndian = .little then (byteOf a 0 ++ byteOf a 1 ++ byteOf a 2 ++ byteOf a 3).setWidth 64
    else a.setWidth 32 |>.setWidth 64) ∧
  UnaryRule .be64 0xdc#8 64 (fun c a => if c.hostEndian = .little then (byteOf a 0 ++ byteOf a 1 ++ byteOf a 2 ++ byteOf a 3 ++ byteOf a 4 ++ byteOf a 5 ++ byteOf a 6 ++ byteOf a 7).setWidth 64
    else a.setWidth 64 |>.setWidth 64)

/-- JA (R194): the pc goes to `pc + 1 + s16(offset)`, whatever lies there. -/
def Obligations.JumpAlways : Prop :=
  ∀ off, ReadsFrom (.ja off) ⟨0x05#8, 0, 0, off, 0⟩ true ∧ ∀ s : State,
    ∃ t, exec (.ja off) s = .next t ∧ GoesTo s t (s.pc + 1 + off.toInt) s.fresh

/-- The eleven conditional jumps on 64-bit operands with an immediate (R195 to R215), taken and not taken. -/
def Obligations.Jump64ImmediateForms : Prop :=
  JumpImmRule .jeq64K 0x15#8 (fun a imm => a == (imm.signExtend 64)) ∧
  JumpImmRule .jgt64K 0x25#8 (fun a imm => (imm.signExtend 64).ult a) ∧
  JumpImmRule .jge64K 0x35#8 (fun a imm => (imm.signExtend 64).ule a) ∧
  JumpImmRule .jset64K 0x45#8 (fun a imm => a &&& (imm.signExtend 64) != 0) ∧
  JumpImmRule .jne64K 0x55#8 (fun a imm => a != (imm.signExtend 64)) ∧
  JumpImmRule .jsgt64K 0x65#8 (fun a imm => (imm.signExtend 64).slt a) ∧
  JumpImmRule .jsge64K 0x75#8 (fun a imm => (imm.signExtend 64).sle a) ∧
  JumpImmRule .jlt64K 0xa5#8 (fun a imm => a.ult (imm.signExtend 64)) ∧
  JumpImmRule .jle64K 0xb5#8 (fun a imm => a.ule (imm.signExtend 64)) ∧
  JumpImmRule .jslt64K 0xc5#8 (fun a imm => a.slt (imm.signExtend 64)) ∧
  JumpImmRule .jsle64K 0xd5#8 (fun a imm => a.sle (imm.signExtend 64))

/-- The eleven conditional jumps on 64-bit operands with a register (R196 to R216), taken and not taken. -/
def Obligations.Jump64RegisterForms : Prop :=
  JumpRegRule .jeq64X 0x1d#8 (fun a b => a == b) ∧
  JumpRegRule .jgt64X 0x2d#8 (fun a b => b.ult a) ∧
  JumpRegRule .jge64X 0x3d#8 (fun a b => b.ule a) ∧
  JumpRegRule .jset64X 0x4d#8 (fun a b => a &&& b != 0) ∧
  JumpRegRule .jne64X 0x5d#8 (fun a b => a != b) ∧
  JumpRegRule .jsgt64X 0x6d#8 (fun a b => b.slt a) ∧
  JumpRegRule .jsge64X 0x7d#8 (fun a b => b.sle a) ∧
  JumpRegRule .jlt64X 0xad#8 (fun a b => a.ult b) ∧
  JumpRegRule .jle64X 0xbd#8 (fun a b => a.ule b) ∧
  JumpRegRule .jslt64X 0xcd#8 (fun a b => a.slt b) ∧
  JumpRegRule .jsle64X 0xdd#8 (fun a b => a.sle b)

/-- The eleven conditional jumps on 32-bit operands with an immediate (R223 to R243), taken and not taken. -/
def Obligations.Jump32ImmediateForms : Prop :=
  JumpImmRule .jeq32K 0x16#8 (fun a imm => (lo32 a) == imm) ∧
  JumpImmRule .jgt32K 0x26#8 (fun a imm => imm.ult (lo32 a)) ∧
  JumpImmRule .jge32K 0x36#8 (fun a imm => imm.ule (lo32 a)) ∧
  JumpImmRule .jset32K 0x46#8 (fun a imm => (lo32 a) &&& imm != 0) ∧
  JumpImmRule .jne32K 0x56#8 (fun a imm => (lo32 a) != imm) ∧
  JumpImmRule .jsgt32K 0x66#8 (fun a imm => imm.slt (lo32 a)) ∧
  JumpImmRule .jsge32K 0x76#8 (fun a imm => imm.sle (lo32 a)) ∧
  JumpImmRule .jlt32K 0xa6#8 (fun a imm => (lo32 a).ult imm) ∧
  JumpImmRule .jle32K 0xb6#8 (fun a imm => (lo32 a).ule imm) ∧
  JumpImmRule .jslt32K 0xc6#8 (fun a imm => (lo32 a).slt imm) ∧
  JumpImmRule .jsle32K 0xd6#8 (fun a imm => (lo32 a).sle imm)

/-- The eleven conditional jumps on 32-bit operands with a register (R224 to R244), taken and not taken. -/
def Obligations.Jump32RegisterForms : Prop :=
  JumpRegRule .jeq32X 0x1e#8 (fun a b => (lo32 a) == (lo32 b)) ∧
  JumpRegRule .jgt32X 0x2e#8 (fun a b => (lo32 b).ult (lo32 a)) ∧
  JumpRegRule .jge32X 0x3e#8 (fun a b => (lo32 b).ule (lo32 a)) ∧
  JumpRegRule .jset32X 0x4e#8 (fun a b => (lo32 a) &&& (lo32 b) != 0) ∧
  JumpRegRule .jne32X 0x5e#8 (fun a b => (lo32 a) != (lo32 b)) ∧
  JumpRegRule .jsgt32X 0x6e#8 (fun a b => (lo32 b).slt (lo32 a)) ∧
  JumpRegRule .jsge32X 0x7e#8 (fun a b => (lo32 b).sle (lo32 a)) ∧
  JumpRegRule .jlt32X 0xae#8 (fun a b => (lo32 a).ult (lo32 b)) ∧
  JumpRegRule .jle32X 0xbe#8 (fun a b => (lo32 a).ule (lo32 b)) ∧
  JumpRegRule .jslt32X 0xce#8 (fun a b => (lo32 a).slt (lo32 b)) ∧
  JumpRegRule .jsle32X 0xde#8 (fun a b => (lo32 a).sle (lo32 b))

/-- CALL_HELPER and CALL_RUNTIME (R250, R252), for every outcome the function has: unknown number, an argument without a
value, a declared failure, or the return. -/
def Obligations.FunctionCalls : Prop :=
  FunctionCallRule .callHelper .helper 0 ∧ FunctionCallRule .callRuntime .runtime 2

/-- CALL_LOCAL (R251), under both values of `LOCAL_CALL_DISP`. The field of the displacement, the lowered frame pointer and R6 to
R9 without a value in the callee are the spec's decisions D8 and D9 ("is this spec's choice"). The clause that an R10 without a value raises
`UnwrittenRegister(10)` is the model's choice (log 14, DEDUCED): R251 names no such fault, and no run reaches such a state. -/
def Obligations.LocalCall : Prop :=
  ∀ (off : BitVec 16) (imm : BitVec 32), ReadsFrom (.callLocal off imm) ⟨0x85, 0, 1, off, imm⟩ true ∧ ∀ s : State,
    (s.cfg.localCallDisp = .imm → off ≠ 0 → exec (.callLocal off imm) s = .fault (illegal s .nonzeroUnusedField)) ∧
    (¬ (s.cfg.localCallDisp = .imm ∧ off ≠ 0) →
      (s.frames.length + 1 ≥ s.cfg.maxCallDepth → exec (.callLocal off imm) s = .fault (.callDepthExceeded s.pc)) ∧
      (s.frames.length + 1 < s.cfg.maxCallDepth → canRead s 10 = false →
        exec (.callLocal off imm) s = .fault (.unwrittenRegister s.pc 10)) ∧
      (s.frames.length + 1 < s.cfg.maxCallDepth → canRead s 10 = true →
        ∃ t, exec (.callLocal off imm) s = .next t ∧
          t.frames = ⟨s.pc + 1, s.x[6], s.x[7], s.x[8], s.x[9], s.x[10]⟩ :: s.frames ∧
          (∀ r : RegNum, 6 ≤ r → r ≤ 9 → t.x[r] = Reg.none) ∧ t.x[10] = Reg.of ((draw s 10).1 - 512) ∧
          (∀ r : RegNum, r ≤ 5 → t.x[r] = s.x[r]) ∧
          t.pc = s.pc + 1 + (match s.cfg.localCallDisp with | .offset => off.toInt | .imm => imm.toInt) ∧
          (∀ a, byteAt t.mem a = byteAt s.mem a) ∧ t.mem = s.mem ∧ t.status = s.status ∧ t.env = s.env ∧
          t.during = s.during ∧ t.fresh = (draw s 10).2.fresh ∧ t.cfg = s.cfg))

/-- EXIT (R253): the end of the run, or the return to the caller. -/
def Obligations.ExitForms : Prop :=
  ReadsFrom .exit ⟨0x95, 0, 0, 0, 0⟩ true ∧ ∀ s : State,
    (canRead s 0 = false → exec .exit s = .fault (.unwrittenRegister s.pc 0)) ∧
    (canRead s 0 = true → s.frames = [] →
      ∃ t, exec .exit s = .next t ∧ t.status = .ended (draw s 0).1 ∧ t.x = s.x ∧ t.pc = s.pc ∧ t.mem = s.mem ∧
        (∀ a, byteAt t.mem a = byteAt s.mem a) ∧ t.frames = [] ∧ t.env = s.env ∧ t.during = s.during ∧
        t.fresh = (draw s 0).2.fresh ∧ t.cfg = s.cfg) ∧
    (∀ f rest, canRead s 0 = true → s.frames = f :: rest →
      ∃ t, exec .exit s = .next t ∧ t.frames = rest ∧ t.x[0] = s.x[0] ∧
        (∀ r : RegNum, 1 ≤ r → r ≤ 5 → t.x[r] = Reg.none) ∧ t.x[6] = f.s6 ∧ t.x[7] = f.s7 ∧ t.x[8] = f.s8 ∧
        t.x[9] = f.s9 ∧ t.x[10] = f.s10 ∧ t.pc = f.retPc ∧ t.mem = s.mem ∧
        (∀ a, byteAt t.mem a = byteAt s.mem a) ∧ t.status = s.status ∧ t.env = s.env ∧ t.during = s.during ∧
        t.fresh = (draw s 0).2.fresh ∧ t.cfg = s.cfg)

/-- The regular loads of 1, 2, 4 and 8 bytes (R264 to R267). What a load finds of shared bytes is the spec's decision
D32 (R60); that it is the value in memory or the one that the current move of the environment gives the byte (`loadedByte`,
`tornByteAt`, `during`) is the model's choice (log 10, DESIGN CHOICE). -/
def Obligations.LoadForms : Prop :=
  LoadRule .ldxB 0x71#8 1 ∧ LoadRule .ldxH 0x69#8 2 ∧ LoadRule .ldxW 0x61#8 4 ∧ LoadRule .ldxDW 0x79#8 8

/-- The regular stores of an immediate of 1, 2, 4 and 8 bytes (R268 to R271). -/
def Obligations.StoreImmediateForms : Prop :=
  StoreImmRule .stB 0x72#8 1 ∧ StoreImmRule .stH 0x6a#8 2 ∧ StoreImmRule .stW 0x62#8 4 ∧ StoreImmRule .stDW 0x7a#8 8

/-- The regular stores of a register of 1, 2, 4 and 8 bytes (R272 to R275). -/
def Obligations.StoreRegisterForms : Prop :=
  StoreRegRule .stxB 0x73#8 1 ∧ StoreRegRule .stxH 0x6b#8 2 ∧ StoreRegRule .stxW 0x63#8 4 ∧ StoreRegRule .stxDW 0x7b#8 8

/-- The atomic operations on 32 bits but for compare and exchange (R286 to R294): the fetching forms return the old value. -/
def Obligations.Atomic32Forms : Prop :=
  AtomicRule .atomicAdd32 0xc3#8 0x00 4 false (· + ·) ∧
  AtomicRule .atomicFetchAdd32 0xc3#8 0x01 4 true (· + ·) ∧
  AtomicRule .atomicOr32 0xc3#8 0x40 4 false (· ||| ·) ∧
  AtomicRule .atomicFetchOr32 0xc3#8 0x41 4 true (· ||| ·) ∧
  AtomicRule .atomicAnd32 0xc3#8 0x50 4 false (· &&& ·) ∧
  AtomicRule .atomicFetchAnd32 0xc3#8 0x51 4 true (· &&& ·) ∧
  AtomicRule .atomicXor32 0xc3#8 0xa0 4 false (· ^^^ ·) ∧
  AtomicRule .atomicFetchXor32 0xc3#8 0xa1 4 true (· ^^^ ·) ∧
  AtomicRule .atomicXchg32 0xc3#8 0xe1 4 true (fun _ v => v)

/-- The atomic operations on 64 bits but for compare and exchange (R296 to R304): the fetching forms return the old value. -/
def Obligations.Atomic64Forms : Prop :=
  AtomicRule .atomicAdd64 0xdb#8 0x00 8 false (· + ·) ∧
  AtomicRule .atomicFetchAdd64 0xdb#8 0x01 8 true (· + ·) ∧
  AtomicRule .atomicOr64 0xdb#8 0x40 8 false (· ||| ·) ∧
  AtomicRule .atomicFetchOr64 0xdb#8 0x41 8 true (· ||| ·) ∧
  AtomicRule .atomicAnd64 0xdb#8 0x50 8 false (· &&& ·) ∧
  AtomicRule .atomicFetchAnd64 0xdb#8 0x51 8 true (· &&& ·) ∧
  AtomicRule .atomicXor64 0xdb#8 0xa0 8 false (· ^^^ ·) ∧
  AtomicRule .atomicFetchXor64 0xdb#8 0xa1 8 true (· ^^^ ·) ∧
  AtomicRule .atomicXchg64 0xdb#8 0xe1 8 true (fun _ v => v)

/-- ATOMIC_CMPXCHG32 and ATOMIC_CMPXCHG64 (R295, R305), comparing with the low bits of R0. -/
def Obligations.CompareExchangeForms : Prop :=
  CompareExchangeRule .atomicCmpxchg32 0xc3#8 4 ∧ CompareExchangeRule .atomicCmpxchg64 0xdb#8 8

/-- LD_IMM64 (R313): all 64 bits of the constant, the low half not sign-extended. -/
def Obligations.LoadConstant64 : Prop :=
  ∀ dst imm nextImm, WideRule (.ldImm64 dst imm nextImm) dst ⟨0x18, regField dst, 0, 0, imm⟩ nextImm
    fun _ => some (nextImm ++ imm)

/-- The six typed 64-bit immediate forms (R314 to R319): the platform function's value where the form is supported and the
function is defined, else illegal (R311). That `code_addr` takes the pc and s32(imm) is the spec's decision D26
(R317; log 8 and 21). -/
def Obligations.LoadPlatformAddresses : Prop :=
  ∀ (dst : RegNum) (imm nextImm : BitVec 32),
    WideRule (.ldMapFd dst imm) dst ⟨0x18, regField dst, 1, 0, imm⟩ 0
      (fun s => if s.cfg.mapsSupported = true then platValue s.cfg.mapByFd Config.freeMapByFd imm else none) ∧
    WideRule (.ldMapFdValue dst imm nextImm) dst ⟨0x18, regField dst, 2, 0, imm⟩ nextImm
      (fun s => if s.cfg.mapsSupported = true then
        ((platValue s.cfg.mapByFd Config.freeMapByFd imm).bind (platValue s.cfg.mva Config.freeMva)).map
          (· + nextImm.setWidth 64) else none) ∧
    WideRule (.ldVarAddr dst imm) dst ⟨0x18, regField dst, 3, 0, imm⟩ 0
      (fun s => if s.cfg.varsSupported = true then platValue s.cfg.variableAddr Config.freeVariableAddr imm else none) ∧
    WideRule (.ldCodeAddr dst imm) dst ⟨0x18, regField dst, 4, 0, imm⟩ 0
      (fun s => platValue s.cfg.codeAddr Config.freeCodeAddr (s.pc, imm.toInt)) ∧
    WideRule (.ldMapIdx dst imm) dst ⟨0x18, regField dst, 5, 0, imm⟩ 0
      (fun s => if s.cfg.mapsSupported = true then platValue s.cfg.mapByIdx Config.freeMapByIdx imm else none) ∧
    WideRule (.ldMapIdxValue dst imm nextImm) dst ⟨0x18, regField dst, 6, 0, imm⟩ nextImm
      (fun s => if s.cfg.mapsSupported = true then
        ((platValue s.cfg.mapByIdx Config.freeMapByIdx imm).bind (platValue s.cfg.mva Config.freeMva)).map
          (· + nextImm.setWidth 64) else none)

/-- The eight deprecated packet access instructions (R323 to R330): always `IllegalInstruction(legacy)`, no field checked. -/
def Obligations.LegacyRefused : Prop :=
  RefusedRule .ldAbsW 0x20#8 ∧
  RefusedRule .ldAbsH 0x28#8 ∧
  RefusedRule .ldAbsB 0x30#8 ∧
  RefusedRule .ldAbsDW 0x38#8 ∧
  RefusedRule .ldIndW 0x40#8 ∧
  RefusedRule .ldIndH 0x48#8 ∧
  RefusedRule .ldIndB 0x50#8 ∧
  RefusedRule .ldIndDW 0x58#8

/-- The pseudo slot (R84, R92): at the position of a first slot the opcode byte 0x00 never runs, and the table's row of it always
faults. -/
def Obligations.PseudoSlotRefused : Prop :=
  (∀ imm, ReadsFrom (.pseudoSlot imm) ⟨0, 0, 0, 0, imm⟩ true ∧
    ∀ s : State, exec (.pseudoSlot imm) s = .fault (illegal s .undefinedOpcode)) ∧
  ∀ s w, s.status = .running → slotAt s.cfg s.pc = some w → w.extractLsb' 0 8 = 0 →
    step s = .fault (.illegalInstruction s.pc w .undefinedOpcode)

/-! ## Encoding and decoding -/

/-- Decoding what the encoder writes gives the instruction back, whatever slots follow (R81, R84, R98). -/
def Obligations.DecodeEncode : Prop :=
  ∀ i : Instr, i.wf = true → ∀ tail : List Slot, ∃ w rest, encode i ++ tail = w :: rest ∧
    decodeSlots w rest.head? = .ok i

/-- Every slot that decodes is the encoding of what it decodes to: no field is ignored (R83, R94). -/
def Obligations.EncodeDecode : Prop :=
  ∀ w next i, decodeSlots w next = .ok i →
    i.wf = true ∧ encode i = w :: (if i.slots = 2 then next.toList else [])

/-- Words written out in the spec beside the instructions they stand for, one or more of each family (R125 to R313), and one opcode the
spec calls illegal (R254). -/
def Obligations.EncodingExamples : Prop :=
  decodeTableWord 64 0x00000000_0000210c = some (.add32X 1 2) ∧
  decodeTableWord 64 0x00000003_00000194 = some (.mod32K 1 3) ∧
  decodeTableWord 64 0x00000000_00000184 = some (.neg32 1) ∧
  decodeTableWord 64 0xffffffff_00000107 = some (.add64K 1 0xffffffff) ∧
  decodeTableWord 64 0x00000010_000001d4 = some (.le16 1) ∧
  decodeTableWord 64 0x00000000_00050005 = some (.ja 5) ∧
  decodeTableWord 64 0xffffffff_00050115 = some (.jeq64K 1 0xffffffff 5) ∧
  decodeTableWord 64 0x00000000_0005212e = some (.jgt32X 1 2 5) ∧
  decodeTableWord 64 0x00000007_00000085 = some (.callHelper 7) ∧
  decodeTableWord 64 0x00000000_00031085 = some (.callLocal 3 0) ∧
  decodeTableWord 64 0x00000000_00000095 = some (.exit) ∧
  decodeTableWord 64 0x00000000_fff8a171 = some (.ldxB 1 10 0xfff8) ∧
  decodeTableWord 64 0x000001ff_ffff0a72 = some (.stB 10 0xffff 511) ∧
  decodeTableWord 64 0x00000000_fff82a73 = some (.stxB 10 0xfff8 2) ∧
  decodeTableWord 64 0x000000e1_000021c3 = some (.atomicXchg32 1 0 2) ∧
  decodeTableWord 128 0x11223344_00000000_55667788_00000118 = some (.ldImm64 1 0x55667788 0x11223344) ∧
  decodeTableWord 64 0x0000000e_00000020 = some (.ldAbsW 0 0 0 14) ∧
  decodeSlots 0x00000000_0000018d none = .error .undefinedOpcode

/-- The opcode map (R95): 123 opcode bytes have a row, and the other 133 decode to nothing. -/
def Obligations.OpcodeMap : Prop :=
  opcodeTable.length = 123 ∧ (opcodeTable.map Prod.fst).Nodup ∧
    ∀ w next, Fields.opcode (Fields.ofSlot w) ∉ opcodeTable.map Prod.fst →
      decodeSlots w next = .error .undefinedOpcode

/-- The little-endian byte image of a program gives the program back, and its bytes are the fields (R86). -/
def Obligations.ByteImage : Prop :=
  (∀ p : List Slot, programOfImage .little (p.flatMap slotImage) = some p) ∧
  (∀ f : Fields, slotImage f.toSlot =
    [f.opcode, f.src ++ f.dst, f.offset.extractLsb' 0 8, f.offset.extractLsb' 8 8, f.imm.extractLsb' 0 8,
      f.imm.extractLsb' 8 8, f.imm.extractLsb' 16 8, f.imm.extractLsb' 24 8])

/-! ## The step, its faults and its invariant -/

/-- One step (R376): the environment's turn, then exec of the instruction that the slots at the pc decode to. -/
def Obligations.StepRunsDecoded : Prop :=
  ∀ s w i, s.status = .running → slotAt s.cfg s.pc = some w →
    decodeSlots w (slotAt s.cfg (s.pc + 1)) = .ok i → step s = exec i (envTurn s)

/-- A pc outside the program (R342) and a slot that is no instruction (R341) fault at the fetch, before anything else. -/
def Obligations.FetchFaults : Prop :=
  ∀ s, s.status = .running →
    ((s.pc < 0 ∨ (s.cfg.program.length : Int) ≤ s.pc) → step s = .fault (.pcOutOfRange s.pc)) ∧
    (∀ w why, slotAt s.cfg s.pc = some w → decodeSlots w (slotAt s.cfg (s.pc + 1)) = .error why →
      step s = .fault (.illegalInstruction s.pc w why))

/-- Every step keeps the invariant: canonical memory, the frame pointer of each depth (R249), the bounded call stack (R347),
registers without a value in one form. -/
def Obligations.StepKeepsInvariant : Prop :=
  ∀ s t, StateInv s → step s = .next t → StateInv t

/-- The state after reset satisfies the invariant. -/
def Obligations.ResetInvariant : Prop :=
  StateInv State.reset

/-- The entry state (R36, R371), for every choice of parameters: the arguments in x[1] to x[k], x[10] = STACK_TOP, no other register
with a value, pc 0, an empty call stack, memory as the host left it. -/
def Obligations.EntryState : Prop :=
  ∀ (c : Config) (m : Memory) (env : List EnvMove), c.entryArgs.length ≤ 5 →
    (∀ k : Nat, (h : k < c.entryArgs.length) → ∀ r : RegNum, r.val = k + 1 →
      (State.entry c m env).x[r] = Reg.of c.entryArgs[k]) ∧
    (∀ r : RegNum, r ≠ 10 → (r = 0 ∨ c.entryArgs.length < r.val) →
      ((State.entry c m env).x[r]).written = false) ∧
    (State.entry c m env).x[10] = Reg.of c.stackTop ∧ (State.entry c m env).pc = 0 ∧
    (State.entry c m env).frames = [] ∧ (State.entry c m env).mem = m ∧
    (State.entry c m env).status = .running ∧ (State.entry c m env).cfg = c

/-- No step changes a parameter: program text, memory map, function tables (R20, R33, R65). -/
def Obligations.ParametersFixed : Prop :=
  ∀ s t, step s = .next t → t.cfg = s.cfg

/-- Only a local call and EXIT change the call stack and R10 (R23, R38). -/
def Obligations.CallStackAndFramePointer : Prop :=
  ∀ i s t, exec i s = .next t → (∀ off imm, i ≠ .callLocal off imm) → i ≠ .exit →
    t.frames = s.frames ∧ t.x[10] = s.x[10]

/-- Arithmetic, jumps, loads, local calls, EXIT and 64-bit immediates leave data memory alone (R68). -/
def Obligations.MemoryInstructions : Prop :=
  ∀ i s t, exec i s = .next t → (∀ id, i ≠ .callHelper id ∧ i ≠ .callRuntime id) →
    ((Fields.ofSlot ((encode i).headD 0)).opcode.extractLsb' 0 3 ≠ 2 ∧
      (Fields.ofSlot ((encode i).headD 0)).opcode.extractLsb' 0 3 ≠ 3) →
    t.mem = s.mem ∧ ∀ a, byteAt t.mem a = byteAt s.mem a

/-- The environment changes bytes of shared regions only, and no register, pc or call stack (R62, R67). -/
def Obligations.EnvironmentOnlyShared : Prop :=
  ∀ s, (envTurn s).x = s.x ∧ (envTurn s).pc = s.pc ∧ (envTurn s).frames = s.frames ∧ (envTurn s).cfg = s.cfg ∧
    (envTurn s).status = s.status ∧
    ∀ a, (∀ r ∈ s.cfg.regions, r.shared = true → ¬ (r.base ≤ a ∧ a < r.base + r.size)) →
      byteAt (envTurn s).mem a = byteAt s.mem a

/-- On bytes of no shared region the atomicity of regular loads does not matter (R60). -/
def Obligations.PrivateLoads : Prop :=
  ∀ s (a n : Nat), n ≤ 8 → (∀ k, k < n → isShared s.cfg (a + k) = false) →
    loadValue s a n = readValue s a n

/-- Reading a register (R35): its value and no change, or, without a value under `UNWRITTEN_READ = any`, a free value drawn afresh. -/
def Obligations.ReadingRegisters : Prop :=
  ∀ (s : State) (r : RegNum),
    (canRead s r = true ↔ (s.x[r].written = true ∨ s.cfg.unwrittenRead = .any)) ∧
    (s.x[r].written = true → draw s r = (s.x[r].value, s)) ∧
    (s.x[r].written = false → (draw s r).1 = Config.freeWord s.fresh ∧ (draw s r).2.fresh = s.fresh + 1 ∧
      (draw s r).2.x = s.x ∧ (draw s r).2.pc = s.pc ∧ (draw s r).2.mem = s.mem ∧ (draw s r).2.frames = s.frames)

/-- A call whose description has a case for the arguments and the data memory has one of the outcomes of that case (R247), each
computed from them, whatever the free choice; where no case applies, the outcome is free (log 7, DESIGN CHOICE). -/
def Obligations.FunctionOutcomes : Prop :=
  ∀ (c : Config) (f : FunDesc) (space : CallSpace) (id : BitVec 32) (args : List Word) (m : Memory) (choice : Nat),
    f.wf = true →
    (∀ k, f.cases.find? (fun e => funValue e.guard (callInput c args m choice) != 0) = some k →
      ∃ o ∈ k.outcomes, functionOutcome c f space id args m choice = outcomeOf (callInput c args m choice) o) ∧
    ((∀ k ∈ f.cases, funValue k.guard (callInput c args m choice) = 0) →
      functionOutcome c f space id args m choice = Config.freeCall space id args m choice)

/-- A relation over arguments and data memory (R247): a described function that copies `a3` bytes from `a2` to `a1` and fails if it
may not read the one or write the other (R348). The description is an example of the model's own (log 7). -/
def Obligations.DescribedCopy : Prop :=
  ∀ (c : Config) (space : CallSpace) (id : BitVec 32) (d e n : Word) (m : Memory) (choice : Nat),
    let o := functionOutcome c copyFunction space id [d, e, n] m choice
    (o.fails = false ↔ admits c e.toNat n.toNat .read = true ∧ admits c d.toNat n.toNat .write = true) ∧
    o.ret = n ∧ o.writes = (List.range n.toNat).map fun i =>
      (d + BitVec.ofNat 64 i, byteAt m (e + BitVec.ofNat 64 i).toNat)

/-! ## Whole-machine properties -/

/-- A store and then a load of the same private bytes give the stored value back, cut to the width and zero-extended (R54, R62). -/
def Obligations.StoreThenLoad : Prop :=
  ∀ (s t : State) (n : Nat) (mkS : RegNum → BitVec 16 → RegNum → Instr) (mkL : RegNum → RegNum → BitVec 16 → Instr)
    (dst src base : RegNum) (off : BitVec 16),
    ((mkS, mkL, n) = (.stxB, .ldxB, 1) ∨ (mkS, mkL, n) = (.stxH, .ldxH, 2) ∨ (mkS, mkL, n) = (.stxW, .ldxW, 4) ∨
      (mkS, mkL, n) = (.stxDW, .ldxDW, 8)) →
    s.x[base].written = true → s.x[src].written = true → writableReg dst = true →
    (∀ k, k < n → isShared s.cfg ((effAddr s.x[base].value off).toNat + k) = false) →
    Admitted s.cfg (effAddr s.x[base].value off) n Region.readable →
    exec (mkS base off src) s = .next t →
    ∃ u, exec (mkL dst base off) t = .next u ∧
      u.x[dst] = Reg.of (BitVec.ofNat 64 (s.x[src].value.toNat % 2 ^ (8 * n)))

/-- A local call and the EXIT of the callee, whatever the callee did to R6 to R9: control returns to the slot after the call with the
caller's R6 to R10 and call stack (R248, R251, R253). -/
def Obligations.CallThenExit : Prop :=
  ∀ (s t u v : State) (off : BitVec 16) (imm : BitVec 32),
    exec (.callLocal off imm) s = .next t → u.frames = t.frames → exec .exit u = .next v →
    v.pc = s.pc + 1 ∧ v.frames = s.frames ∧ v.x[0] = u.x[0] ∧ v.mem = u.mem ∧
    ∀ r : RegNum, 6 ≤ r → v.x[r] = s.x[r]

/-- A run that has ended takes no further step (R377). That `step` of a state that has ended answers that same state again is
the model's choice (log 11, DESIGN CHOICE): R377 says only that no further step is taken. -/
def Obligations.ExitEndsRun : Prop :=
  ∀ s v n, s.status = .ended v → step s = .next s ∧ runFor n s = s ∧ resultOf s = some v

/-- A fault ends the run with the state as it was before the instruction (R340, R353). That the state kept with the fault is the one
after the environment's turn of the faulting step is the model's choice (log 11, DESIGN CHOICE; R376): R340 and R353 do not
speak of the environment. -/
def Obligations.FaultsArePrecise : Prop :=
  ∀ s f n, s.status = .running → step s = .fault f →
    runFor (n + 1) s = { envTurn s with status := .faulted f }

/-- The upper halves of the operands have no influence on a 32-bit operation (R120). -/
def Obligations.Alu32IgnoresUpperHalves : Prop :=
  ∀ (op : AluOp) (dst src : RegNum) (s s' t t' : State), s'.cfg = s.cfg →
    s.x[dst].written = true → s'.x[dst].written = true → s.x[src].written = true → s'.x[src].written = true →
    lo32 s'.x[dst].value = lo32 s.x[dst].value → lo32 s'.x[src].value = lo32 s.x[src].value →
    alu32X op dst src s = .next t → alu32X op dst src s' = .next t' →
    t'.x[dst] = t.x[dst] ∧ t.x[dst].value.toNat < 2 ^ 32

/-- A byte swap is its own inverse on the low N bits (R181). -/
def Obligations.ByteSwapTwice : Prop :=
  ∀ (i : Instr) (n : Nat) (dst : RegNum) (s t u : State),
    (i, n) ∈ [(.le16 dst, 2), (.le32 dst, 4), (.le64 dst, 8), (.be16 dst, 2), (.be32 dst, 4), (.be64 dst, 8)] →
    s.x[dst].written = true → exec i s = .next t → exec i t = .next u →
    u.x[dst].value.toNat = s.x[dst].value.toNat % 2 ^ (8 * n)

/-- The source's example of truncated division: -13 % 3 = -1 when DIV and MOD are signed (R122); and the quotient and remainder of the
most negative number by -1. -/
def Obligations.TruncatedModulo : Prop :=
  modulo .signed (-13 : BitVec 64) 3 = -1 ∧ divide .signed (-13 : BitVec 64) 3 = -4 ∧
  divide .signed (0x80000000 : BitVec 32) (-1) = 0x80000000 ∧ modulo .signed (0x80000000 : BitVec 32) (-1) = 0 ∧
  ∀ (w : Nat) (a : BitVec w) (mode : DivMode), divide mode a 0 = 0 ∧ modulo mode a 0 = a

/-- The example of R52: the bytes of a stored 64-bit value, seen one at a time, under both byte orders. -/
def Obligations.MixedWidthBytes : Prop :=
  ∀ (s : State) (a : Nat),
    byteAt (writeValue s a 8 0x1122334455667788).mem a = (match s.cfg.hostEndian with | .little => 0x88 | .big => 0x11) ∧
    byteAt (writeValue s a 8 0x1122334455667788).mem (a + 7) =
      (match s.cfg.hostEndian with | .little => 0x11 | .big => 0x88)

/-- A program that the loader accepts (R374) is never found illegal: from any of its first slots the fetch succeeds, no
instruction is illegal, and no called number is unknown. -/
def Obligations.LoadedProgramNeverIllegal : Prop :=
  ∀ (c : Config) (is : List (Nat × Instr)) (s : State) (f : Fault),
    loaderFault c = none → scan 0 c.program = .ok is → s.cfg = c → s.status = .running →
    (∃ e ∈ is, s.pc = e.1) → step s = .fault f →
    faultCode f ≠ 1 ∧ faultCode f ≠ 2 ∧ faultCode f ≠ 5

/-- In a program that the loader accepts (R374), a step from a first slot, with return slots that are first slots or the end, goes to a
first slot or to the end of the text. -/
def Obligations.LoadedProgramStaysOnStarts : Prop :=
  ∀ (c : Config) (is : List (Nat × Instr)) (s t : State),
    loaderFault c = none → scan 0 c.program = .ok is → s.cfg = c → s.status = .running →
    (∃ e ∈ is, s.pc = e.1) →
    (∀ f ∈ s.frames, (∃ e ∈ is, f.retPc = e.1) ∨ f.retPc = c.program.length) →
    step s = .next t →
    ((∃ e ∈ is, t.pc = e.1) ∨ t.pc = c.program.length) ∧
    (∀ f ∈ t.frames, (∃ e ∈ is, f.retPc = e.1) ∨ f.retPc = c.program.length)

/-- The loader names, for a jump or call target that is no first slot, the fault of the fetch there (R342): the pc out of range, or
an undefined opcode on a pseudo slot. R193 and R374 name none; that the loader names this one is the model's choice (log 16). -/
def Obligations.LoaderNamesTheFault : Prop :=
  ∀ (c : Config) (is : List (Nat × Instr)) (n : Nat) (d : Int) (f : Fault) (s : State),
    scan 0 c.program = .ok is → targetFault c (is.map Prod.fst) n (some d) = some f →
    s.cfg = c → s.status = .running → s.pc = n + 1 + d → step s = .fault f

/-- Between two runs only the bytes of shared regions survive (R373): a later run finds what the earlier one left there, what the
host has placed for it, and no other byte, register, pc or call stack. That private objects of the arguments outlive a run
only if the host places them again, and that the count of free values goes on past the most that
one step draws, are the model's choices (log 23; 5 and 7). -/
def Obligations.SurvivingMemory : Prop :=
  ∀ (s : State) (c : Config) (placed : List (Word × Byte)) (env : List EnvMove) (a : Nat),
    lookupByte (nextRun s c placed env).mem a =
      (match placed.reverse.find? fun w => w.1.toNat == a with
        | some w => some w.2
        | none => if isShared s.cfg a = true then lookupByte s.mem a else none) ∧
    (nextRun s c placed env).frames = [] ∧ (nextRun s c placed env).pc = 0 ∧
    (nextRun s c placed env).x = (State.entry c [] []).x ∧ (nextRun s c placed env).status = .running ∧
    (nextRun s c placed env).env = env ∧ (nextRun s c placed env).fresh = s.fresh + 6 ∧ (nextRun s c placed env).cfg = c
end

