-- ==== Sys2Proof/Laws/Fields.lean ====
section
/-! SUPPORT. A slot and its five fields determine each other (R81). -/

namespace Sys2Proof.Laws

/-- The fields of the slot made of some fields are those fields. -/
theorem ofSlot_toSlot (f : Fields) : Fields.ofSlot f.toSlot = f := by
  cases f with | mk o d s off imm =>
  simp only [Fields.ofSlot, Fields.toSlot, Fields.mk.injEq]
  refine ⟨?_, ?_, ?_, ?_, ?_⟩ <;> ext i hi <;>
    simp only [BitVec.getElem_extractLsb', BitVec.getLsbD_append]
  · simp [hi]
  · simp [hi, show 8 + i - 8 = i by omega]
  · simp [hi, show 12 + i - 8 - 4 = i by omega, show ¬ (12 + i < 8) by omega, show ¬ (12 + i - 8 < 4) by omega]
  · simp [hi, show 16 + i - 8 - 4 - 4 = i by omega, show ¬ (16 + i < 8) by omega,
      show ¬ (16 + i - 8 < 4) by omega, show ¬ (16 + i - 8 - 4 < 4) by omega]
  · simp [hi, show 32 + i - 8 - 4 - 4 - 16 = i by omega, show ¬ (32 + i < 8) by omega,
      show ¬ (32 + i - 8 < 4) by omega, show ¬ (32 + i - 8 - 4 < 4) by omega,
      show ¬ (32 + i - 8 - 4 - 4 < 16) by omega]

/-- The slot made of the fields of a slot is that slot. -/
theorem toSlot_ofSlot (w : Slot) : (Fields.ofSlot w).toSlot = w := by
  ext i hi
  rw [← BitVec.getLsbD_eq_getElem, ← BitVec.getLsbD_eq_getElem]
  simp only [Fields.ofSlot, Fields.toSlot, BitVec.getLsbD_append, BitVec.getLsbD_extractLsb']
  by_cases h1 : i < 8
  · simp [h1]
  by_cases h2 : i - 8 < 4
  · simp [h1, h2, show 8 + (i - 8) = i by omega]
  by_cases h3 : i - 8 - 4 < 4
  · simp only [h1, h2, h3, if_false, if_true, decide_true, Bool.true_and, show 12 + (i - 8 - 4) = i by omega]
  by_cases h4 : i - 8 - 4 - 4 < 16
  · simp only [h1, h2, h3, h4, if_false, if_true, decide_true, Bool.true_and,
      show 16 + (i - 8 - 4 - 4) = i by omega]
  · simp only [h1, h2, h3, h4, if_false, decide_true, Bool.true_and, show i - 8 - 4 - 4 - 16 < 32 by omega,
      show 32 + (i - 8 - 4 - 4 - 16) = i by omega]

end Sys2Proof.Laws
end

