-- ==== Sys2Proof/Laws/State.lean ====
section
/-! SUPPORT. What each state update does to each field, so that no later proof unfolds a record update. -/

namespace Sys2Proof.Machine

/-! ### `setReg` -/

@[simp] theorem setReg_x (s : State) (r : RegNum) (v : Word) : (setReg s r v).x = s.x.set r (Reg.of v) := rfl
@[simp] theorem setReg_pc (s : State) (r : RegNum) (v : Word) : (setReg s r v).pc = s.pc := rfl
@[simp] theorem setReg_mem (s : State) (r : RegNum) (v : Word) : (setReg s r v).mem = s.mem := rfl
@[simp] theorem setReg_frames (s : State) (r : RegNum) (v : Word) : (setReg s r v).frames = s.frames := rfl
@[simp] theorem setReg_status (s : State) (r : RegNum) (v : Word) : (setReg s r v).status = s.status := rfl
@[simp] theorem setReg_env (s : State) (r : RegNum) (v : Word) : (setReg s r v).env = s.env := rfl
@[simp] theorem setReg_during (s : State) (r : RegNum) (v : Word) : (setReg s r v).during = s.during := rfl
@[simp] theorem setReg_fresh (s : State) (r : RegNum) (v : Word) : (setReg s r v).fresh = s.fresh := rfl
@[simp] theorem setReg_cfg (s : State) (r : RegNum) (v : Word) : (setReg s r v).cfg = s.cfg := rfl

/-! ### `dropReg` -/

@[simp] theorem dropReg_x (s : State) (r : RegNum) : (dropReg s r).x = s.x.set r Reg.none := rfl
@[simp] theorem dropReg_pc (s : State) (r : RegNum) : (dropReg s r).pc = s.pc := rfl
@[simp] theorem dropReg_mem (s : State) (r : RegNum) : (dropReg s r).mem = s.mem := rfl
@[simp] theorem dropReg_frames (s : State) (r : RegNum) : (dropReg s r).frames = s.frames := rfl
@[simp] theorem dropReg_status (s : State) (r : RegNum) : (dropReg s r).status = s.status := rfl
@[simp] theorem dropReg_env (s : State) (r : RegNum) : (dropReg s r).env = s.env := rfl
@[simp] theorem dropReg_during (s : State) (r : RegNum) : (dropReg s r).during = s.during := rfl
@[simp] theorem dropReg_fresh (s : State) (r : RegNum) : (dropReg s r).fresh = s.fresh := rfl
@[simp] theorem dropReg_cfg (s : State) (r : RegNum) : (dropReg s r).cfg = s.cfg := rfl

/-! ### `dropArgs` -/

@[simp] theorem dropArgs_x (s : State) : (dropArgs s).x = ((((s.x.set 1 Reg.none).set 2 Reg.none).set 3 Reg.none).set 4 Reg.none).set 5 Reg.none := rfl
@[simp] theorem dropArgs_pc (s : State) : (dropArgs s).pc = s.pc := rfl
@[simp] theorem dropArgs_mem (s : State) : (dropArgs s).mem = s.mem := rfl
@[simp] theorem dropArgs_frames (s : State) : (dropArgs s).frames = s.frames := rfl
@[simp] theorem dropArgs_status (s : State) : (dropArgs s).status = s.status := rfl
@[simp] theorem dropArgs_env (s : State) : (dropArgs s).env = s.env := rfl
@[simp] theorem dropArgs_during (s : State) : (dropArgs s).during = s.during := rfl
@[simp] theorem dropArgs_fresh (s : State) : (dropArgs s).fresh = s.fresh := rfl
@[simp] theorem dropArgs_cfg (s : State) : (dropArgs s).cfg = s.cfg := rfl

/-! ### `advance` -/

@[simp] theorem advance_x (s : State) (n : Nat) : (advance s n).x = s.x := rfl
@[simp] theorem advance_pc (s : State) (n : Nat) : (advance s n).pc = s.pc + n := rfl
@[simp] theorem advance_mem (s : State) (n : Nat) : (advance s n).mem = s.mem := rfl
@[simp] theorem advance_frames (s : State) (n : Nat) : (advance s n).frames = s.frames := rfl
@[simp] theorem advance_status (s : State) (n : Nat) : (advance s n).status = s.status := rfl
@[simp] theorem advance_env (s : State) (n : Nat) : (advance s n).env = s.env := rfl
@[simp] theorem advance_during (s : State) (n : Nat) : (advance s n).during = s.during := rfl
@[simp] theorem advance_fresh (s : State) (n : Nat) : (advance s n).fresh = s.fresh := rfl
@[simp] theorem advance_cfg (s : State) (n : Nat) : (advance s n).cfg = s.cfg := rfl

/-! ### `branch` -/

@[simp] theorem branch_x (s : State) (taken : Bool) (disp : Int) : (branch s taken disp).x = s.x := rfl
@[simp] theorem branch_pc (s : State) (taken : Bool) (disp : Int) : (branch s taken disp).pc = s.pc + 1 + if taken then disp else 0 := rfl
@[simp] theorem branch_mem (s : State) (taken : Bool) (disp : Int) : (branch s taken disp).mem = s.mem := rfl
@[simp] theorem branch_frames (s : State) (taken : Bool) (disp : Int) : (branch s taken disp).frames = s.frames := rfl
@[simp] theorem branch_status (s : State) (taken : Bool) (disp : Int) : (branch s taken disp).status = s.status := rfl
@[simp] theorem branch_env (s : State) (taken : Bool) (disp : Int) : (branch s taken disp).env = s.env := rfl
@[simp] theorem branch_during (s : State) (taken : Bool) (disp : Int) : (branch s taken disp).during = s.during := rfl
@[simp] theorem branch_fresh (s : State) (taken : Bool) (disp : Int) : (branch s taken disp).fresh = s.fresh := rfl
@[simp] theorem branch_cfg (s : State) (taken : Bool) (disp : Int) : (branch s taken disp).cfg = s.cfg := rfl

/-! ### `writeValue` -/

@[simp] theorem writeValue_x (s : State) (a n : Nat) (v : Word) : (writeValue s a n v).x = s.x := rfl
@[simp] theorem writeValue_pc (s : State) (a n : Nat) (v : Word) : (writeValue s a n v).pc = s.pc := rfl
@[simp] theorem writeValue_mem (s : State) (a n : Nat) (v : Word) : (writeValue s a n v).mem = storeBytes s.mem a (inOrder s.cfg.hostEndian (lowBytes n v)) := rfl
@[simp] theorem writeValue_frames (s : State) (a n : Nat) (v : Word) : (writeValue s a n v).frames = s.frames := rfl
@[simp] theorem writeValue_status (s : State) (a n : Nat) (v : Word) : (writeValue s a n v).status = s.status := rfl
@[simp] theorem writeValue_env (s : State) (a n : Nat) (v : Word) : (writeValue s a n v).env = s.env := rfl
@[simp] theorem writeValue_during (s : State) (a n : Nat) (v : Word) : (writeValue s a n v).during = s.during := rfl
@[simp] theorem writeValue_fresh (s : State) (a n : Nat) (v : Word) : (writeValue s a n v).fresh = s.fresh := rfl
@[simp] theorem writeValue_cfg (s : State) (a n : Nat) (v : Word) : (writeValue s a n v).cfg = s.cfg := rfl

/-! ### `enterFunction` -/

@[simp] theorem enterFunction_x (s : State) (fp : Word) (disp : Int) : (enterFunction s fp disp).x = ((((s.x.set 6 Reg.none).set 7 Reg.none).set 8 Reg.none).set 9 Reg.none).set 10 (Reg.of (fp - 512)) := rfl
@[simp] theorem enterFunction_pc (s : State) (fp : Word) (disp : Int) : (enterFunction s fp disp).pc = s.pc + 1 + disp := rfl
@[simp] theorem enterFunction_mem (s : State) (fp : Word) (disp : Int) : (enterFunction s fp disp).mem = s.mem := rfl
@[simp] theorem enterFunction_frames (s : State) (fp : Word) (disp : Int) : (enterFunction s fp disp).frames = frameOf s :: s.frames := rfl
@[simp] theorem enterFunction_status (s : State) (fp : Word) (disp : Int) : (enterFunction s fp disp).status = s.status := rfl
@[simp] theorem enterFunction_env (s : State) (fp : Word) (disp : Int) : (enterFunction s fp disp).env = s.env := rfl
@[simp] theorem enterFunction_during (s : State) (fp : Word) (disp : Int) : (enterFunction s fp disp).during = s.during := rfl
@[simp] theorem enterFunction_fresh (s : State) (fp : Word) (disp : Int) : (enterFunction s fp disp).fresh = s.fresh := rfl
@[simp] theorem enterFunction_cfg (s : State) (fp : Word) (disp : Int) : (enterFunction s fp disp).cfg = s.cfg := rfl

/-! ### `leaveFunction` -/

@[simp] theorem leaveFunction_x (s : State) (f : Frame) (rest : List Frame) : (leaveFunction s f rest).x = (((((dropArgs s).x.set 6 f.s6).set 7 f.s7).set 8 f.s8).set 9 f.s9).set 10 f.s10 := rfl
@[simp] theorem leaveFunction_pc (s : State) (f : Frame) (rest : List Frame) : (leaveFunction s f rest).pc = f.retPc := rfl
@[simp] theorem leaveFunction_mem (s : State) (f : Frame) (rest : List Frame) : (leaveFunction s f rest).mem = s.mem := rfl
@[simp] theorem leaveFunction_frames (s : State) (f : Frame) (rest : List Frame) : (leaveFunction s f rest).frames = rest := rfl
@[simp] theorem leaveFunction_status (s : State) (f : Frame) (rest : List Frame) : (leaveFunction s f rest).status = s.status := rfl
@[simp] theorem leaveFunction_env (s : State) (f : Frame) (rest : List Frame) : (leaveFunction s f rest).env = s.env := rfl
@[simp] theorem leaveFunction_during (s : State) (f : Frame) (rest : List Frame) : (leaveFunction s f rest).during = s.during := rfl
@[simp] theorem leaveFunction_fresh (s : State) (f : Frame) (rest : List Frame) : (leaveFunction s f rest).fresh = s.fresh := rfl
@[simp] theorem leaveFunction_cfg (s : State) (f : Frame) (rest : List Frame) : (leaveFunction s f rest).cfg = s.cfg := rfl

/-! ### `draw`: only the count of free values changes -/

@[simp] theorem draw_x (s : State) (r : RegNum) : (draw s r).2.x = s.x := by
  simp only [draw]; split <;> rfl
@[simp] theorem draw_pc (s : State) (r : RegNum) : (draw s r).2.pc = s.pc := by
  simp only [draw]; split <;> rfl
@[simp] theorem draw_mem (s : State) (r : RegNum) : (draw s r).2.mem = s.mem := by
  simp only [draw]; split <;> rfl
@[simp] theorem draw_frames (s : State) (r : RegNum) : (draw s r).2.frames = s.frames := by
  simp only [draw]; split <;> rfl
@[simp] theorem draw_status (s : State) (r : RegNum) : (draw s r).2.status = s.status := by
  simp only [draw]; split <;> rfl
@[simp] theorem draw_env (s : State) (r : RegNum) : (draw s r).2.env = s.env := by
  simp only [draw]; split <;> rfl
@[simp] theorem draw_during (s : State) (r : RegNum) : (draw s r).2.during = s.during := by
  simp only [draw]; split <;> rfl
theorem draw_fresh (s : State) (r : RegNum) : (draw s r).2.fresh = if s.x[r].written then s.fresh else s.fresh + 1 := by
  simp only [draw]; split <;> rfl
@[simp] theorem draw_cfg (s : State) (r : RegNum) : (draw s r).2.cfg = s.cfg := by
  simp only [draw]; split <;> rfl

/-- A read of a register that holds a value returns it and changes nothing (R35). -/
theorem draw_of_written (s : State) (r : RegNum) (h : s.x[r].written = true) : draw s r = (s.x[r].value, s) := by
  simp only [draw, h, if_true]

/-- A read of a register that holds no value returns a fresh free value (R35). -/
theorem draw_of_unwritten (s : State) (r : RegNum) (h : s.x[r].written = false) :
    draw s r = (Config.freeWord s.fresh, { s with fresh := s.fresh + 1 }) := by
  simp only [draw, h, Bool.false_eq_true, if_false]

/-- What reading does not change, all at once: a state after a read is the state before, but for the count. -/
theorem draw_eq (s : State) (r : RegNum) : (draw s r).2 = { s with fresh := (draw s r).2.fresh } := by
  simp only [draw]; split <;> rfl

/-! ### `drawAll` -/

@[simp] theorem drawAll_x (s : State) (rs : List RegNum) : (drawAll s rs).2.x = s.x := by
  induction rs generalizing s with
  | nil => rfl
  | cons r rs ih => simp only [drawAll, ih, draw_x]
@[simp] theorem drawAll_pc (s : State) (rs : List RegNum) : (drawAll s rs).2.pc = s.pc := by
  induction rs generalizing s with
  | nil => rfl
  | cons r rs ih => simp only [drawAll, ih, draw_pc]
@[simp] theorem drawAll_mem (s : State) (rs : List RegNum) : (drawAll s rs).2.mem = s.mem := by
  induction rs generalizing s with
  | nil => rfl
  | cons r rs ih => simp only [drawAll, ih, draw_mem]
@[simp] theorem drawAll_frames (s : State) (rs : List RegNum) : (drawAll s rs).2.frames = s.frames := by
  induction rs generalizing s with
  | nil => rfl
  | cons r rs ih => simp only [drawAll, ih, draw_frames]
@[simp] theorem drawAll_status (s : State) (rs : List RegNum) : (drawAll s rs).2.status = s.status := by
  induction rs generalizing s with
  | nil => rfl
  | cons r rs ih => simp only [drawAll, ih, draw_status]
@[simp] theorem drawAll_env (s : State) (rs : List RegNum) : (drawAll s rs).2.env = s.env := by
  induction rs generalizing s with
  | nil => rfl
  | cons r rs ih => simp only [drawAll, ih, draw_env]
@[simp] theorem drawAll_during (s : State) (rs : List RegNum) : (drawAll s rs).2.during = s.during := by
  induction rs generalizing s with
  | nil => rfl
  | cons r rs ih => simp only [drawAll, ih, draw_during]
@[simp] theorem drawAll_cfg (s : State) (rs : List RegNum) : (drawAll s rs).2.cfg = s.cfg := by
  induction rs generalizing s with
  | nil => rfl
  | cons r rs ih => simp only [drawAll, ih, draw_cfg]

/-! ### `envTurn`: memory, the moves and the values during the step -/

@[simp] theorem envTurn_x (s : State) : (envTurn s).x = s.x := by
  simp only [envTurn]; split <;> rfl
@[simp] theorem envTurn_pc (s : State) : (envTurn s).pc = s.pc := by
  simp only [envTurn]; split <;> rfl
@[simp] theorem envTurn_frames (s : State) : (envTurn s).frames = s.frames := by
  simp only [envTurn]; split <;> rfl
@[simp] theorem envTurn_status (s : State) : (envTurn s).status = s.status := by
  simp only [envTurn]; split <;> rfl
@[simp] theorem envTurn_fresh (s : State) : (envTurn s).fresh = s.fresh := by
  simp only [envTurn]; split <;> rfl
@[simp] theorem envTurn_cfg (s : State) : (envTurn s).cfg = s.cfg := by
  simp only [envTurn]; split <;> rfl

/-! ### Registers after a write -/

/-- The register written reads back (R25). -/
theorem set_self (x : Vector Reg 11) (r : RegNum) (v : Reg) : (x.set r v)[r] = v := by
  simp [Fin.getElem_fin]

/-- Another register is as before. -/
theorem set_other (x : Vector Reg 11) (r q : RegNum) (v : Reg) (h : q ≠ r) : (x.set r v)[q] = x[q] := by
  simp only [Fin.getElem_fin]
  exact Vector.getElem_set_ne _ _ (fun e => h (Fin.ext e.symm))

end Sys2Proof.Machine
end

