-- ==== Sys2Proof/Laws/Memory.lean ====
section
/-! SUPPORT. Data memory: what a read finds after a store, that every operation keeps the canonical form, and the bytes
of a value. -/

namespace Sys2Proof.Machine

/-! ### One byte -/

/-- A read of the byte stored finds it. -/
theorem lookupByte_storeByte_self (a : Nat) (b : Byte) (m : Memory) : lookupByte (storeByte a b m) a = some b := by
  induction m with
  | nil => simp [lookupByte, storeByte]
  | cons e m ih =>
    obtain ⟨k, v⟩ := e
    simp only [lookupByte] at ih
    simp only [lookupByte, storeByte]
    split
    · simp
    · split
      · simp
      · have : (a == k) = false := by simpa using ‹¬ a = k›
        simpa [List.lookup, this] using ih

/-- A read of another byte finds what it found before, in memory in canonical form. -/
theorem lookupByte_storeByte_other (a c : Nat) (b : Byte) (m : Memory) (h : c ≠ a) :
    lookupByte (storeByte a b m) c = lookupByte m c := by
  induction m with
  | nil =>
    have : (c == a) = false := by simpa using h
    simp [lookupByte, storeByte, List.lookup, this]
  | cons e m ih =>
    obtain ⟨k, v⟩ := e
    simp only [lookupByte] at ih
    simp only [lookupByte, storeByte]
    have hca : (c == a) = false := by simpa using h
    split
    · simp [List.lookup, hca]
    · split
      · rename_i e; subst e; simp [List.lookup, hca]
      · by_cases hk : c = k
        · simp [List.lookup, hk]
        · have : (c == k) = false := by simpa using hk
          simpa [List.lookup, this] using ih

/-- What a read of one byte finds after a store of one byte. -/
theorem byteAt_storeByte (a c : Nat) (b : Byte) (m : Memory) :
    byteAt (storeByte a b m) c = if c = a then b else byteAt m c := by
  split
  · rename_i h; subst h; simp [byteAt, lookupByte_storeByte_self]
  · rename_i h; simp [byteAt, lookupByte_storeByte_other _ _ _ _ h]

/-- Storing a byte keeps the canonical form above a bound. -/
theorem sortedFrom_storeByte (lo a : Nat) (b : Byte) (m : Memory) (hlo : lo ≤ a) (ha : a < 2 ^ 64)
    (h : Memory.sortedFrom lo m = true) : Memory.sortedFrom lo (storeByte a b m) = true := by
  induction m generalizing lo with
  | nil => simp only [storeByte, Memory.sortedFrom, Bool.and_true]; simp [hlo]; omega
  | cons e m ih =>
    obtain ⟨k, v⟩ := e
    simp only [Memory.sortedFrom, Bool.and_eq_true, decide_eq_true_eq] at h
    obtain ⟨⟨h1, h2⟩, h3⟩ := h
    simp only [storeByte]
    split
    · simp only [Memory.sortedFrom, Bool.and_eq_true, decide_eq_true_eq]
      exact ⟨⟨hlo, ha⟩, ⟨by omega, h2⟩, h3⟩
    · split
      · rename_i e; subst e
        simp only [Memory.sortedFrom, Bool.and_eq_true, decide_eq_true_eq]
        exact ⟨⟨hlo, ha⟩, h3⟩
      · simp only [Memory.sortedFrom, Bool.and_eq_true, decide_eq_true_eq]
        exact ⟨⟨h1, h2⟩, ih (k + 1) (by omega) h3⟩

/-- Storing a byte inside the address space keeps the canonical form. -/
theorem wf_storeByte (a : Nat) (b : Byte) (m : Memory) (ha : a < 2 ^ 64) (h : m.wf = true) :
    (Memory.wf (storeByte a b m)) = true :=
  sortedFrom_storeByte 0 a b m (Nat.zero_le a) ha h

/-! ### Several bytes -/

/-- What a read of one byte finds after a store of several: the byte stored there, or what was there before. -/
theorem byteAt_storeBytes (m : Memory) (a c : Nat) (bs : List Byte) :
    byteAt (storeBytes m a bs) c = if h : a ≤ c ∧ c - a < bs.length then bs[c - a]'h.2 else byteAt m c := by
  induction bs generalizing m a with
  | nil => simp [storeBytes]
  | cons b bs ih =>
    simp only [storeBytes, ih, byteAt_storeByte, List.length_cons]
    by_cases hc : c = a
    · subst hc; simp
    · by_cases h : a ≤ c ∧ c - a < bs.length + 1
      · have h' : a + 1 ≤ c ∧ c - (a + 1) < bs.length := by omega
        have e : c - a = c - (a + 1) + 1 := by omega
        rw [dif_pos h', dif_pos h]
        simp only [e, List.getElem_cons_succ]
      · have h' : ¬ (a + 1 ≤ c ∧ c - (a + 1) < bs.length) := by omega
        rw [dif_neg h', dif_neg h, if_neg hc]

/-- Storing bytes inside the address space keeps the canonical form. -/
theorem wf_storeBytes (m : Memory) (a : Nat) (bs : List Byte) (ha : a + bs.length ≤ 2 ^ 64) (h : m.wf = true) :
    (Memory.wf (storeBytes m a bs)) = true := by
  induction bs generalizing m a with
  | nil => exact h
  | cons b bs ih =>
    simp only [List.length_cons] at ha
    exact ih _ _ (by omega) (wf_storeByte a b m (by omega) h)

/-- Storing bytes each at its own address keeps the canonical form. -/
theorem wf_storeEach (m : Memory) (ws : List (Word × Byte)) (h : m.wf = true) :
    (Memory.wf (storeEach m ws)) = true := by
  induction ws generalizing m with
  | nil => exact h
  | cons w ws ih => exact ih _ (wf_storeByte _ _ _ w.1.isLt h)

/-- The environment's writes keep the canonical form. -/
theorem wf_storeShared (c : Config) (m : Memory) (ws : List (Word × Byte)) (h : m.wf = true) :
    (Memory.wf (storeShared c m ws)) = true := by
  induction ws generalizing m with
  | nil => exact h
  | cons w ws ih =>
    obtain ⟨a, b⟩ := w
    simp only [storeShared]
    split
    · exact ih _ (wf_storeByte _ _ _ a.isLt h)
    · exact ih _ h

/-- The environment's turn keeps the canonical form. -/
theorem wf_envTurn (s : State) (h : s.mem.wf = true) : (envTurn s).mem.wf = true := by
  simp only [envTurn]
  split
  · exact h
  · exact wf_storeShared _ _ _ h

/-- The environment's writes leave bytes of no shared region alone (R67). -/
theorem byteAt_storeShared (c : Config) (m : Memory) (ws : List (Word × Byte)) (a : Nat)
    (h : isShared c a = false) : byteAt (storeShared c m ws) a = byteAt m a := by
  induction ws generalizing m with
  | nil => rfl
  | cons w ws ih =>
    obtain ⟨k, b⟩ := w
    simp only [storeShared, ih]
    split
    · rename_i hk
      rw [byteAt_storeByte, if_neg]
      rintro rfl
      simp [h] at hk
    · rfl

/-! ### Bytes of a value -/

@[simp] theorem lowBytes_length (n : Nat) (v : Word) : (lowBytes n v).length = n := by
  induction n generalizing v with
  | zero => rfl
  | succ n ih => simp [lowBytes, ih]

@[simp] theorem inOrder_length (o : ByteOrder) (bs : List Byte) : (inOrder o bs).length = bs.length := by
  cases o <;> simp [inOrder]

@[simp] theorem bytesAt_length (m : Memory) (a n : Nat) : (bytesAt m a n).length = n := by
  induction n generalizing a with
  | zero => rfl
  | succ n ih => simp [bytesAt, ih]

/-- Putting bytes in order twice gives them back (R181). -/
@[simp] theorem inOrder_inOrder (o : ByteOrder) (bs : List Byte) : inOrder o (inOrder o bs) = bs := by
  cases o <;> simp [inOrder]

/-- The `n` bytes read after a store of `n` bytes at the same address are the bytes stored. -/
theorem bytesAt_storeBytes (m : Memory) (a : Nat) (bs : List Byte) :
    bytesAt (storeBytes m a bs) a bs.length = bs := by
  have key : ∀ (n k : Nat), k + n ≤ bs.length →
      bytesAt (storeBytes m a bs) (a + k) n = (bs.drop k).take n := by
    intro n
    induction n with
    | zero => intro k _; simp [bytesAt]
    | succ n ih =>
      intro k hk
      have h1 : k < bs.length := by omega
      rw [bytesAt, byteAt_storeBytes, dif_pos ⟨by omega, by omega⟩, show a + k + 1 = a + (k + 1) by omega,
        ih (k + 1) (by omega), List.drop_eq_getElem_cons h1, List.take_succ_cons]
      congr 2
      omega
  simpa using key bs.length 0 (by omega)

/-- A store of `n` bytes keeps the canonical form where the bytes lie inside the address space. -/
theorem wf_writeValue (s : State) (a n : Nat) (v : Word) (ha : a + n ≤ 2 ^ 64) (h : s.mem.wf = true) :
    (writeValue s a n v).mem.wf = true := by
  rw [writeValue_mem]
  exact wf_storeBytes _ _ _ (by simpa using ha) h

end Sys2Proof.Machine
end

