-- ==== Sys2Proof/Laws/Ops.lean ====
section
/-! SUPPORT. What each shared operation can do, said once for each: every outcome it has and when. Proofs about
instructions cite these and do not unfold the operations. -/

namespace Sys2Proof.Machine

/-! ### Outcomes -/

@[simp] theorem finish_ok (s : State) : finish (.ok s) = .next s := rfl
@[simp] theorem finish_error (f : Fault) : finish (.error f) = .fault f := rfl

/-- A computation never refuses. -/
theorem finish_ne_refused (r : Except Fault State) (w : Refusal) : finish r ≠ .refused w := by
  cases r <;> simp [finish]

/-! ### Reading registers -/

theorem mem_allRegs (r : RegNum) : r ∈ allRegs := by revert r; decide

/-- Every register read is readable, or the fault is for the lowest-numbered one that is not (R352). -/
theorem firstUnreadable_none (rs : List RegNum) (s : State) :
    firstUnreadable rs s = none ↔ ∀ r ∈ rs, canRead s r = true := by
  simp only [firstUnreadable, List.find?_eq_none, mem_allRegs, forall_const]
  constructor
  · intro h r hr
    have := h r
    simpa [hr] using this
  · intro h r
    by_cases hr : r ∈ rs <;> simp [hr, h]

theorem firstUnreadable_some (rs : List RegNum) (s : State) (a : RegNum) (h : firstUnreadable rs s = some a) :
    a ∈ rs ∧ canRead s a = false ∧ ∀ b, b < a → b ∈ rs → canRead s b = true := by
  simp only [firstUnreadable, List.find?_eq_some_iff_append] at h
  obtain ⟨hp, as, bs, hl, hb⟩ := h
  simp only [Bool.and_eq_true, List.contains_eq_mem, decide_eq_true_eq, Bool.not_eq_true'] at hp
  refine ⟨hp.1, hp.2, fun b hlt hmem => ?_⟩
  have hsort : (as ++ a :: bs).Pairwise (· < ·) := hl ▸ (by decide : allRegs.Pairwise (· < ·))
  have hin : b ∈ as ++ a :: bs := hl ▸ mem_allRegs b
  have hbas : b ∈ as := by
    rcases List.mem_append.mp hin with h | h
    · exact h
    · exfalso
      rcases List.mem_cons.mp h with h | h
      · exact absurd (h ▸ hlt) (lt_irrefl _)
      · have := (List.pairwise_append.mp hsort).2.1
        exact absurd ((List.pairwise_cons.mp this).1 b h) (not_lt.mpr hlt.le)
  have := hb b hbas
  simpa [hmem] using this

theorem guardReads_eq (rs : List RegNum) (s : State) :
    guardReads rs s = match firstUnreadable rs s with
      | none => .ok ()
      | some r => .error (.unwrittenRegister s.pc r) := rfl

theorem guardReads_ok (rs : List RegNum) (s : State) (h : ∀ r ∈ rs, canRead s r = true) :
    guardReads rs s = .ok () := by
  rw [guardReads_eq, (firstUnreadable_none rs s).mpr h]

/-- What a read that faults reports: the lowest-numbered register without a value (R345, R352). -/
theorem guardReads_error (rs : List RegNum) (s : State) (a : RegNum) (ha : a ∈ rs) (hr : canRead s a = false)
    (hlow : ∀ b, b < a → b ∈ rs → canRead s b = true) :
    guardReads rs s = .error (.unwrittenRegister s.pc a) := by
  rw [guardReads_eq]
  cases h : firstUnreadable rs s with
  | none =>
    have := (firstUnreadable_none rs s).mp h a ha
    simp [this] at hr
  | some b =>
    obtain ⟨h1, h2, h3⟩ := firstUnreadable_some rs s b h
    have : a = b := by
      rcases lt_trichotomy a b with h | h | h
      · simp [h3 a h ha] at hr
      · exact h
      · simp [hlow b h h1] at h2
    rw [this]

/-- One register: the value it yields, or its fault (R35, R345). -/
theorem read1_eq (r : RegNum) (s : State) :
    read1 r s = if canRead s r = true then .ok (draw s r) else .error (.unwrittenRegister s.pc r) := by
  simp only [read1]
  split
  · rw [guardReads_ok _ _ (by simpa using ‹_›)]; rfl
  · rw [guardReads_error [r] s r (by simp) (by simpa using ‹¬ canRead s r = true›)
      (by intro b hb hm; simp at hm; exact absurd (hm ▸ hb) (lt_irrefl _))]; rfl

/-- Two registers: the values they yield, or the fault of the lower-numbered one without a value (R35, R352). -/
theorem read2_eq (r q : RegNum) (s : State) :
    read2 r q s = if canRead s r = true ∧ canRead s q = true then
        .ok ((draw s r).1, (draw (draw s r).2 q).1, (draw (draw s r).2 q).2)
      else .error (.unwrittenRegister s.pc (lowUnreadable s r q)) := by
  simp only [read2]
  split
  · rw [guardReads_ok _ _ (by simpa using ‹_›)]; rfl
  · rename_i h
    have key : guardReads [r, q] s = .error (.unwrittenRegister s.pc (lowUnreadable s r q)) := by
      simp only [lowUnreadable]
      split
      · rename_i hr
        have hq : canRead s q = false := by simpa [hr] using h
        refine guardReads_error _ _ _ (by simp) hq ?_
        intro b hb hm
        rcases List.mem_cons.mp hm with rfl | hm
        · exact hr
        · simp at hm; exact absurd (hm ▸ hb) (lt_irrefl _)
      · rename_i hr
        split
        · rename_i hq
          refine guardReads_error _ _ _ (by simp) (by simpa using hr) ?_
          intro b hb hm
          rcases List.mem_cons.mp hm with rfl | hm
          · exact absurd hb (lt_irrefl _)
          · simp at hm; rw [hm]; exact hq
        · rename_i hq
          refine guardReads_error _ _ _ ?_ ?_ ?_
          · rcases min_choice r q with h | h <;> simp [h]
          · rcases min_choice r q with h | h <;> rw [h]
            · simpa using hr
            · simpa using hq
          · intro b hb hm
            exfalso
            rcases List.mem_cons.mp hm with rfl | hm
            · exact absurd (lt_min_iff.mp hb).1 (lt_irrefl _)
            · simp at hm; subst hm; exact absurd (lt_min_iff.mp hb).2 (lt_irrefl _)
    rw [key]; rfl

/-- Several registers, all readable: the values they yield (R35). -/
theorem readRegs_ok (rs : List RegNum) (s : State) (h : ∀ r ∈ rs, canRead s r = true) :
    readRegs rs s = .ok (drawAll s rs) := by
  simp only [readRegs, guardReads_ok rs s h]; rfl

/-- Several registers: they are all readable, or the read faults (R345). -/
theorem readRegs_cases (rs : List RegNum) (s : State) :
    ((∀ r ∈ rs, canRead s r = true) ∧ readRegs rs s = .ok (drawAll s rs)) ∨
      ∃ r ∈ rs, canRead s r = false ∧ (∀ q ∈ rs, canRead s q = false → r ≤ q) ∧
        readRegs rs s = .error (.unwrittenRegister s.pc r) := by
  cases h : firstUnreadable rs s with
  | none =>
    have h' := (firstUnreadable_none rs s).mp h
    exact .inl ⟨h', readRegs_ok rs s h'⟩
  | some a =>
    obtain ⟨h1, h2, h3⟩ := firstUnreadable_some rs s a h
    refine .inr ⟨a, h1, h2, fun q hq hc => not_lt.mp fun hl => by simp [h3 q hl hq] at hc, ?_⟩
    simp only [readRegs, guardReads_eq, h]; rfl

/-- Three registers: the values they yield, or a fault (R35, R345). -/
theorem read3_cases (r q p : RegNum) (s : State) :
    ((∀ k ∈ [r, q, p], canRead s k = true) ∧ read3 r q p s = .ok ((draw s r).1, (draw (draw s r).2 q).1,
        (draw (draw (draw s r).2 q).2 p).1, (draw (draw (draw s r).2 q).2 p).2)) ∨
      ∃ k ∈ [r, q, p], canRead s k = false ∧ (∀ j ∈ [r, q, p], canRead s j = false → k ≤ j) ∧
        read3 r q p s = .error (.unwrittenRegister s.pc k) := by
  cases h : firstUnreadable [r, q, p] s with
  | none =>
    have h' := (firstUnreadable_none _ s).mp h
    exact .inl ⟨h', by simp only [read3, guardReads_ok _ s h']; rfl⟩
  | some a =>
    obtain ⟨h1, h2, h3⟩ := firstUnreadable_some _ s a h
    exact .inr ⟨a, h1, h2, fun q hq hc => not_lt.mp fun hl => by simp [h3 q hl hq] at hc,
      by simp only [read3, guardReads_eq, h]; rfl⟩

/-! ### Checks -/

theorem guardWrite_eq (r : RegNum) (s : State) :
    guardWrite r s = if writableReg r = true then .ok () else .error (illegal s .badRegister) := rfl

/-- An access: aligned and admitted, or the fault of alignment first (R263, R282, R352). -/
theorem checkAccess_eq (s : State) (a : Word) (n : Nat) (k : AccessKind) :
    checkAccess s a n k =
      if aligned s.cfg a.toNat n k = true then
        if admits s.cfg a.toNat n k = true then .ok () else .error (.memFault s.pc a n k)
      else .error (.memFault s.pc a n .align) := by
  simp only [checkAccess, require]
  split <;> rfl

/-- An access that is admitted lies inside the address space (R52). -/
theorem admits_bound (c : Config) (a n : Nat) (k : AccessKind) (h : admits c a n k = true) : a + n ≤ 2 ^ 64 := by
  simp only [admits, Bool.and_eq_true, decide_eq_true_eq] at h
  exact h.1

/-! ### Arithmetic, jumps -/

theorem alu32K_eq (op : AluOp) (dst : RegNum) (imm : BitVec 32) (s : State) :
    alu32K op dst imm s =
      if writableReg dst = true then
        if canRead s dst = true then
          match aluResult s.cfg op (lo32 (draw s dst).1) imm with
          | some r => .next (advance (setReg (draw s dst).2 dst (zext64 r)) 1)
          | none => .fault (.refusedShift s.pc)
        else .fault (.unwrittenRegister s.pc dst)
      else .fault (illegal s .badRegister) := by
  simp only [alu32K, guardWrite_eq, read1_eq, aluOrRefuse]
  split
  · split
    · simp only [bind, Except.bind, draw_cfg, draw_pc]
      cases aluResult s.cfg op (lo32 (draw s dst).1) imm <;> rfl
    · rfl
  · rfl

theorem alu64K_eq (op : AluOp) (dst : RegNum) (imm : BitVec 32) (s : State) :
    alu64K op dst imm s =
      if writableReg dst = true then
        if canRead s dst = true then
          match aluResult s.cfg op (draw s dst).1 (sext64 imm) with
          | some r => .next (advance (setReg (draw s dst).2 dst r) 1)
          | none => .fault (.refusedShift s.pc)
        else .fault (.unwrittenRegister s.pc dst)
      else .fault (illegal s .badRegister) := by
  simp only [alu64K, guardWrite_eq, read1_eq, aluOrRefuse]
  split
  · split
    · simp only [bind, Except.bind, draw_cfg, draw_pc]
      cases aluResult s.cfg op (draw s dst).1 (sext64 imm) <;> rfl
    · rfl
  · rfl

theorem alu32X_eq (op : AluOp) (dst src : RegNum) (s : State) :
    alu32X op dst src s =
      if writableReg dst = true then
        if canRead s dst = true ∧ canRead s src = true then
          match aluResult s.cfg op (lo32 (draw s dst).1) (lo32 (draw (draw s dst).2 src).1) with
          | some r => .next (advance (setReg (draw (draw s dst).2 src).2 dst (zext64 r)) 1)
          | none => .fault (.refusedShift s.pc)
        else .fault (.unwrittenRegister s.pc (lowUnreadable s dst src))
      else .fault (illegal s .badRegister) := by
  simp only [alu32X, guardWrite_eq, read2_eq, aluOrRefuse]
  split
  · split
    · simp only [bind, Except.bind, draw_cfg, draw_pc]
      cases aluResult s.cfg op (lo32 (draw s dst).1) (lo32 (draw (draw s dst).2 src).1) <;> rfl
    · rfl
  · rfl

theorem alu64X_eq (op : AluOp) (dst src : RegNum) (s : State) :
    alu64X op dst src s =
      if writableReg dst = true then
        if canRead s dst = true ∧ canRead s src = true then
          match aluResult s.cfg op (draw s dst).1 (draw (draw s dst).2 src).1 with
          | some r => .next (advance (setReg (draw (draw s dst).2 src).2 dst r) 1)
          | none => .fault (.refusedShift s.pc)
        else .fault (.unwrittenRegister s.pc (lowUnreadable s dst src))
      else .fault (illegal s .badRegister) := by
  simp only [alu64X, guardWrite_eq, read2_eq, aluOrRefuse]
  split
  · split
    · simp only [bind, Except.bind, draw_cfg, draw_pc]
      cases aluResult s.cfg op (draw s dst).1 (draw (draw s dst).2 src).1 <;> rfl
    · rfl
  · rfl

theorem unary_eq (f : Word → Word) (dst : RegNum) (s : State) :
    unary f dst s =
      if writableReg dst = true then
        if canRead s dst = true then .next (advance (setReg (draw s dst).2 dst (f (draw s dst).1)) 1)
        else .fault (.unwrittenRegister s.pc dst)
      else .fault (illegal s .badRegister) := by
  simp only [unary, guardWrite_eq, read1_eq]
  split
  · split <;> rfl
  · rfl

theorem moveConst_eq (n : Nat) (dst : RegNum) (v : Word) (s : State) :
    moveConst n dst v s =
      if writableReg dst = true then .next (advance (setReg s dst v) n) else .fault (illegal s .badRegister) := by
  simp only [moveConst, guardWrite_eq]
  split <;> rfl

theorem moveReg_eq (f : Word → Word) (dst src : RegNum) (s : State) :
    moveReg f dst src s =
      if writableReg dst = true then
        if canRead s src = true then .next (advance (setReg (draw s src).2 dst (f (draw s src).1)) 1)
        else .fault (.unwrittenRegister s.pc src)
      else .fault (illegal s .badRegister) := by
  simp only [moveReg, guardWrite_eq, read1_eq]
  split
  · split <;> rfl
  · rfl

theorem loadPlatform_eq (dst : RegNum) (v : Option Word) (s : State) :
    loadPlatform dst v s =
      match v with
      | some w => if writableReg dst = true then .next (advance (setReg s dst w) 2) else .fault (illegal s .badRegister)
      | none => .fault (illegal s .unsupportedOptional) := by
  cases v
  · rfl
  · exact moveConst_eq _ _ _ _

theorem jump64K_eq (c : Cond) (dst : RegNum) (imm : BitVec 32) (off : BitVec 16) (s : State) :
    jump64K c dst imm off s =
      if canRead s dst = true then
        .next (branch (draw s dst).2 (condHolds c (draw s dst).1 (sext64 imm)) (offsetSlots off))
      else .fault (.unwrittenRegister s.pc dst) := by
  simp only [jump64K, read1_eq]
  split <;> rfl

theorem jump32K_eq (c : Cond) (dst : RegNum) (imm : BitVec 32) (off : BitVec 16) (s : State) :
    jump32K c dst imm off s =
      if canRead s dst = true then
        .next (branch (draw s dst).2 (condHolds c (lo32 (draw s dst).1) imm) (offsetSlots off))
      else .fault (.unwrittenRegister s.pc dst) := by
  simp only [jump32K, read1_eq]
  split <;> rfl

theorem jump64X_eq (c : Cond) (dst src : RegNum) (off : BitVec 16) (s : State) :
    jump64X c dst src off s =
      if canRead s dst = true ∧ canRead s src = true then
        .next (branch (draw (draw s dst).2 src).2 (condHolds c (draw s dst).1 (draw (draw s dst).2 src).1)
          (offsetSlots off))
      else .fault (.unwrittenRegister s.pc (lowUnreadable s dst src)) := by
  simp only [jump64X, read2_eq]
  split <;> rfl

theorem jump32X_eq (c : Cond) (dst src : RegNum) (off : BitVec 16) (s : State) :
    jump32X c dst src off s =
      if canRead s dst = true ∧ canRead s src = true then
        .next (branch (draw (draw s dst).2 src).2 (condHolds c (lo32 (draw s dst).1) (lo32 (draw (draw s dst).2 src).1))
          (offsetSlots off))
      else .fault (.unwrittenRegister s.pc (lowUnreadable s dst src)) := by
  simp only [jump32X, read2_eq]
  split <;> rfl

/-! ### Loads, stores, atomic operations -/

theorem load_eq (n : Nat) (dst src : RegNum) (off : BitVec 16) (s : State) :
    load n dst src off s =
      if writableReg dst = true then
        if canRead s src = true then
          if aligned s.cfg (effAddr (draw s src).1 off).toNat n .read = true then
            if admits s.cfg (effAddr (draw s src).1 off).toNat n .read = true then
              .next (advance (setReg (draw s src).2 dst
                (loadValue (draw s src).2 (effAddr (draw s src).1 off).toNat n)) 1)
            else .fault (.memFault s.pc (effAddr (draw s src).1 off) n .read)
          else .fault (.memFault s.pc (effAddr (draw s src).1 off) n .align)
        else .fault (.unwrittenRegister s.pc src)
      else .fault (illegal s .badRegister) := by
  simp only [load, guardWrite_eq, read1_eq]
  split
  · split
    · simp only [bind, Except.bind, checkAccess_eq, draw_cfg, draw_pc]
      by_cases ha : aligned s.cfg (effAddr (draw s src).1 off).toNat n .read = true
      · by_cases hb : admits s.cfg (effAddr (draw s src).1 off).toNat n .read = true
        · simp only [ha, hb, if_true]; rfl
        · simp only [ha, hb, if_true]; rfl
      · simp only [ha]; rfl
    · rfl
  · rfl

theorem storeImm_eq (n : Nat) (dst : RegNum) (off : BitVec 16) (imm : BitVec 32) (s : State) :
    storeImm n dst off imm s =
      if canRead s dst = true then
        if aligned s.cfg (effAddr (draw s dst).1 off).toNat n .write = true then
          if admits s.cfg (effAddr (draw s dst).1 off).toNat n .write = true then
            .next (advance (writeValue (draw s dst).2 (effAddr (draw s dst).1 off).toNat n (sext64 imm)) 1)
          else .fault (.memFault s.pc (effAddr (draw s dst).1 off) n .write)
        else .fault (.memFault s.pc (effAddr (draw s dst).1 off) n .align)
      else .fault (.unwrittenRegister s.pc dst) := by
  simp only [storeImm, read1_eq]
  split
  · simp only [bind, Except.bind, checkAccess_eq, draw_cfg, draw_pc]
    by_cases ha : aligned s.cfg (effAddr (draw s dst).1 off).toNat n .write = true
    · by_cases hb : admits s.cfg (effAddr (draw s dst).1 off).toNat n .write = true
      · simp only [ha, hb, if_true]; rfl
      · simp only [ha, hb, if_true]; rfl
    · simp only [ha]; rfl
  · rfl

theorem storeReg_eq (n : Nat) (dst : RegNum) (off : BitVec 16) (src : RegNum) (s : State) :
    storeReg n dst off src s =
      if canRead s dst = true ∧ canRead s src = true then
        if aligned s.cfg (effAddr (draw s dst).1 off).toNat n .write = true then
          if admits s.cfg (effAddr (draw s dst).1 off).toNat n .write = true then
            .next (advance (writeValue (draw (draw s dst).2 src).2 (effAddr (draw s dst).1 off).toNat n
              (draw (draw s dst).2 src).1) 1)
          else .fault (.memFault s.pc (effAddr (draw s dst).1 off) n .write)
        else .fault (.memFault s.pc (effAddr (draw s dst).1 off) n .align)
      else .fault (.unwrittenRegister s.pc (lowUnreadable s dst src)) := by
  simp only [storeReg, read2_eq]
  split
  · simp only [bind, Except.bind, checkAccess_eq, draw_cfg, draw_pc]
    by_cases ha : aligned s.cfg (effAddr (draw s dst).1 off).toNat n .write = true
    · by_cases hb : admits s.cfg (effAddr (draw s dst).1 off).toNat n .write = true
      · simp only [ha, hb, if_true]; rfl
      · simp only [ha, hb, if_true]; rfl
    · simp only [ha]; rfl
  · rfl

/-- The state after the two reads of an atomic operation. -/
abbrev read2State (s : State) (r q : RegNum) : State := (draw (draw s r).2 q).2

theorem atomicUpdate_eq (n : Nat) (op : AtomicOp) (dst : RegNum) (off : BitVec 16) (src : RegNum) (s : State) :
    atomicUpdate n op dst off src s =
      if canRead s dst = true ∧ canRead s src = true then
        if aligned s.cfg (effAddr (draw s dst).1 off).toNat n .atomic = true then
          if admits s.cfg (effAddr (draw s dst).1 off).toNat n .atomic = true then
            .next (advance (writeValue (read2State s dst src) (effAddr (draw s dst).1 off).toNat n
              (atomicResult op (readValue (read2State s dst src) (effAddr (draw s dst).1 off).toNat n)
                (truncTo n (draw (draw s dst).2 src).1))) 1)
          else .fault (.memFault s.pc (effAddr (draw s dst).1 off) n .atomic)
        else .fault (.memFault s.pc (effAddr (draw s dst).1 off) n .align)
      else .fault (.unwrittenRegister s.pc (lowUnreadable s dst src)) := by
  simp only [atomicUpdate, read2_eq]
  split
  · simp only [bind, Except.bind, checkAccess_eq, draw_cfg, draw_pc]
    by_cases ha : aligned s.cfg (effAddr (draw s dst).1 off).toNat n .atomic = true
    · by_cases hb : admits s.cfg (effAddr (draw s dst).1 off).toNat n .atomic = true
      · simp only [ha, hb, if_true]; rfl
      · simp only [ha, hb, if_true]; rfl
    · simp only [ha]; rfl
  · rfl

theorem atomicFetch_eq (n : Nat) (op : AtomicOp) (dst : RegNum) (off : BitVec 16) (src : RegNum) (s : State) :
    atomicFetch n op dst off src s =
      if writableReg src = true then
        if canRead s dst = true ∧ canRead s src = true then
          if aligned s.cfg (effAddr (draw s dst).1 off).toNat n .atomic = true then
            if admits s.cfg (effAddr (draw s dst).1 off).toNat n .atomic = true then
              .next (advance (setReg (writeValue (read2State s dst src) (effAddr (draw s dst).1 off).toNat n
                (atomicResult op (readValue (read2State s dst src) (effAddr (draw s dst).1 off).toNat n)
                  (truncTo n (draw (draw s dst).2 src).1))) src
                (readValue (read2State s dst src) (effAddr (draw s dst).1 off).toNat n)) 1)
            else .fault (.memFault s.pc (effAddr (draw s dst).1 off) n .atomic)
          else .fault (.memFault s.pc (effAddr (draw s dst).1 off) n .align)
        else .fault (.unwrittenRegister s.pc (lowUnreadable s dst src))
      else .fault (illegal s .badRegister) := by
  simp only [atomicFetch, guardWrite_eq, read2_eq]
  split
  · split
    · simp only [bind, Except.bind, checkAccess_eq, draw_cfg, draw_pc]
      by_cases ha : aligned s.cfg (effAddr (draw s dst).1 off).toNat n .atomic = true
      · by_cases hb : admits s.cfg (effAddr (draw s dst).1 off).toNat n .atomic = true
        · simp only [ha, hb, if_true]; rfl
        · simp only [ha, hb, if_true]; rfl
      · simp only [ha]; rfl
    · rfl
  · rfl

/-- The state after the three reads of a compare and exchange. -/
abbrev read3State (s : State) (r q p : RegNum) : State := (draw (draw (draw s r).2 q).2 p).2

/-- A compare and exchange, all registers readable (R295, R305). -/
theorem compareExchange_eq (n : Nat) (dst : RegNum) (off : BitVec 16) (src : RegNum) (s : State)
    (h : ∀ k ∈ [dst, src, 0], canRead s k = true) :
    compareExchange n dst off src s =
      if aligned s.cfg (effAddr (draw s dst).1 off).toNat n .atomic = true then
        if admits s.cfg (effAddr (draw s dst).1 off).toNat n .atomic = true then
          .next (advance (setReg
            (if readValue (read3State s dst src 0) (effAddr (draw s dst).1 off).toNat n
                = truncTo n (draw (draw (draw s dst).2 src).2 0).1 then
              writeValue (read3State s dst src 0) (effAddr (draw s dst).1 off).toNat n (draw (draw s dst).2 src).1
            else read3State s dst src 0) 0
            (readValue (read3State s dst src 0) (effAddr (draw s dst).1 off).toNat n)) 1)
        else .fault (.memFault s.pc (effAddr (draw s dst).1 off) n .atomic)
      else .fault (.memFault s.pc (effAddr (draw s dst).1 off) n .align) := by
  simp only [compareExchange, read3, guardReads_ok _ s h]
  simp only [bind, Except.bind, checkAccess_eq, draw_cfg, draw_pc]
  by_cases ha : aligned s.cfg (effAddr (draw s dst).1 off).toNat n .atomic = true
  · by_cases hb : admits s.cfg (effAddr (draw s dst).1 off).toNat n .atomic = true
    · simp only [ha, hb, if_true]; rfl
    · simp only [ha, hb, if_true]; rfl
  · simp only [ha]; rfl

/-- A compare and exchange that reads a register without a value faults for the lowest-numbered one (R345, R352). -/
theorem compareExchange_unreadable (n : Nat) (dst : RegNum) (off : BitVec 16) (src : RegNum) (s : State) (k : RegNum)
    (hk : k ∈ [dst, src, 0]) (h : canRead s k = false) :
    ∃ r ∈ [dst, src, 0], canRead s r = false ∧ (∀ q ∈ [dst, src, 0], canRead s q = false → r ≤ q) ∧
      compareExchange n dst off src s = .fault (.unwrittenRegister s.pc r) := by
  rcases read3_cases dst src 0 s with ⟨h', -⟩ | ⟨r, h1, h2, h3, e⟩
  · simp [h' k hk] at h
  · exact ⟨r, h1, h2, h3, by simp only [compareExchange, e]; rfl⟩

/-! ### Calls -/

@[simp] theorem truthWord_eq_zero (b : Bool) : (truthWord b = 0) = (b = false) := by cases b <;> simp [truthWord]
@[simp] theorem callInput_cfg (c : Config) (args : List Word) (m : Memory) (n : Nat) : (callInput c args m n).cfg = c := rfl
@[simp] theorem callInput_args (c : Config) (args : List Word) (m : Memory) (n : Nat) :
    (callInput c args m n).args = args := rfl
@[simp] theorem callInput_mem (c : Config) (args : List Word) (m : Memory) (n : Nat) : (callInput c args m n).mem = m := rfl
@[simp] theorem callInput_choice (c : Config) (args : List Word) (m : Memory) (n : Nat) :
    (callInput c args m n).choice = n := rfl
@[simp] theorem outcomeOf_ret (e : FunInput) (o : OutcomeDesc) : (outcomeOf e o).ret = funValue o.ret e := rfl
@[simp] theorem outcomeOf_fails (e : FunInput) (o : OutcomeDesc) : (outcomeOf e o).fails = (funValue o.fails e != 0) := rfl

/-- What a choice gives: one of the outcomes, where there is any. -/
theorem pickOutcome_mem (os : List CallOutcome) (o : CallOutcome) (choice : Nat) (h : os ≠ []) :
    pickOutcome os o choice ∈ os := by
  match os, h with
  | [a], _ => simp [pickOutcome]
  | a :: b :: rest, _ =>
    simp only [pickOutcome]
    have h : Config.freePick choice % (a :: b :: rest).length < (a :: b :: rest).length := Nat.mod_lt _ (by simp)
    rw [List.getElem?_eq_getElem h, Option.getD_some]
    exact List.getElem_mem _

/-- The state that a call of a function leaves, from the state after its reads (R250). -/
def afterCall (t : State) (o : CallOutcome) : State :=
  advance (setReg (dropArgs { t with mem := storeEach t.mem o.writes, fresh := t.fresh + 1 }) 0 o.ret) 1

/-- A call of a helper or runtime function: unknown, an argument without a value, a declared failure, or its outcome. -/
theorem callFunction_cases (space : CallSpace) (id : BitVec 32) (s : State) :
    ((functionsOf s.cfg space).lookup id = none ∧
        callFunction space id s = .fault (.unknownFunction s.pc space id)) ∨
      ∃ f, (functionsOf s.cfg space).lookup id = some f ∧
        ((∃ r ∈ argRegs f.arity, canRead s r = false ∧
            (∀ q ∈ argRegs f.arity, canRead s q = false → r ≤ q) ∧
            callFunction space id s = .fault (.unwrittenRegister s.pc r)) ∨
          (∀ r ∈ argRegs f.arity, canRead s r = true) ∧
            callFunction space id s =
              (let d := drawAll s (argRegs f.arity)
               let o := functionOutcome s.cfg f space id d.1 d.2.mem d.2.fresh
               if (f.canFail && o.fails) = true then .fault (.helperFault s.pc space id)
               else .next (afterCall d.2 o))) := by
  simp only [callFunction]
  cases hl : (functionsOf s.cfg space).lookup id with
  | none => exact .inl ⟨rfl, rfl⟩
  | some f =>
    refine .inr ⟨f, rfl, ?_⟩
    rcases readRegs_cases (argRegs f.arity) s with ⟨h, e⟩ | ⟨r, hr, hc, hl, e⟩
    · refine .inr ⟨h, ?_⟩
      simp only [e, bind, Except.bind, require]
      cases hb : (f.canFail && (functionOutcome s.cfg f space id (drawAll s (argRegs f.arity)).1
        (drawAll s (argRegs f.arity)).2.mem (drawAll s (argRegs f.arity)).2.fresh).fails) <;> simp [afterCall]
    · exact .inl ⟨r, hr, hc, hl, by simp only [e]; rfl⟩

theorem callEbpf_eq (disp : Int) (s : State) :
    callEbpf disp s =
      if s.frames.length + 1 < s.cfg.maxCallDepth then
        if canRead s 10 = true then .next (enterFunction (draw s 10).2 (draw s 10).1 disp)
        else .fault (.unwrittenRegister s.pc 10)
      else .fault (.callDepthExceeded s.pc) := by
  simp only [callEbpf, require, read1_eq, decide_eq_true_eq]
  split
  · split <;> rfl
  · rfl

theorem exitFunction_eq (s : State) :
    exitFunction s =
      if canRead s 0 = true then
        match s.frames with
        | [] => .next { (draw s 0).2 with status := .ended (draw s 0).1 }
        | f :: rest => .next (leaveFunction (draw s 0).2 f rest)
      else .fault (.unwrittenRegister s.pc 0) := by
  simp only [exitFunction, read1_eq]
  split
  · simp only [bind, Except.bind, draw_frames]
    cases s.frames <;> rfl
  · rfl

end Sys2Proof.Machine
end

