-- ==== Sys2Proof/Laws/PerInstr.lean ====
section
/-! SUPPORT. Facts about each instruction as syntax, one lemma for each constructor. -/

namespace Sys2Proof.Laws

/-- The encoder gives one slot or two, and the first slot carries the opcode byte of a row of the table (R80, R92, R95). -/
def EncodesToRow.Statement (i : Instr) : Prop :=
  (i.slots = 1 ∨ i.slots = 2) ∧
    ∃ w rest, encode i = w :: rest ∧ ((opcodeTable.map Prod.fst).contains (Fields.ofSlot w).opcode) = true

theorem EncodesToRow.add32K (dst : RegNum) (imm : BitVec 32) : EncodesToRow.Statement (.add32K dst imm) :=
  ⟨Or.inl rfl, _, _, rfl, by rw [ofSlot_toSlot]; rfl⟩

theorem EncodesToRow.add32X (dst : RegNum) (src : RegNum) : EncodesToRow.Statement (.add32X dst src) :=
  ⟨Or.inl rfl, _, _, rfl, by rw [ofSlot_toSlot]; rfl⟩

theorem EncodesToRow.sub32K (dst : RegNum) (imm : BitVec 32) : EncodesToRow.Statement (.sub32K dst imm) :=
  ⟨Or.inl rfl, _, _, rfl, by rw [ofSlot_toSlot]; rfl⟩

theorem EncodesToRow.sub32X (dst : RegNum) (src : RegNum) : EncodesToRow.Statement (.sub32X dst src) :=
  ⟨Or.inl rfl, _, _, rfl, by rw [ofSlot_toSlot]; rfl⟩

theorem EncodesToRow.mul32K (dst : RegNum) (imm : BitVec 32) : EncodesToRow.Statement (.mul32K dst imm) :=
  ⟨Or.inl rfl, _, _, rfl, by rw [ofSlot_toSlot]; rfl⟩

theorem EncodesToRow.mul32X (dst : RegNum) (src : RegNum) : EncodesToRow.Statement (.mul32X dst src) :=
  ⟨Or.inl rfl, _, _, rfl, by rw [ofSlot_toSlot]; rfl⟩

theorem EncodesToRow.div32K (dst : RegNum) (imm : BitVec 32) : EncodesToRow.Statement (.div32K dst imm) :=
  ⟨Or.inl rfl, _, _, rfl, by rw [ofSlot_toSlot]; rfl⟩

theorem EncodesToRow.div32X (dst : RegNum) (src : RegNum) : EncodesToRow.Statement (.div32X dst src) :=
  ⟨Or.inl rfl, _, _, rfl, by rw [ofSlot_toSlot]; rfl⟩

theorem EncodesToRow.or32K (dst : RegNum) (imm : BitVec 32) : EncodesToRow.Statement (.or32K dst imm) :=
  ⟨Or.inl rfl, _, _, rfl, by rw [ofSlot_toSlot]; rfl⟩

theorem EncodesToRow.or32X (dst : RegNum) (src : RegNum) : EncodesToRow.Statement (.or32X dst src) :=
  ⟨Or.inl rfl, _, _, rfl, by rw [ofSlot_toSlot]; rfl⟩

theorem EncodesToRow.and32K (dst : RegNum) (imm : BitVec 32) : EncodesToRow.Statement (.and32K dst imm) :=
  ⟨Or.inl rfl, _, _, rfl, by rw [ofSlot_toSlot]; rfl⟩

theorem EncodesToRow.and32X (dst : RegNum) (src : RegNum) : EncodesToRow.Statement (.and32X dst src) :=
  ⟨Or.inl rfl, _, _, rfl, by rw [ofSlot_toSlot]; rfl⟩

theorem EncodesToRow.lsh32K (dst : RegNum) (imm : BitVec 32) : EncodesToRow.Statement (.lsh32K dst imm) :=
  ⟨Or.inl rfl, _, _, rfl, by rw [ofSlot_toSlot]; rfl⟩

theorem EncodesToRow.lsh32X (dst : RegNum) (src : RegNum) : EncodesToRow.Statement (.lsh32X dst src) :=
  ⟨Or.inl rfl, _, _, rfl, by rw [ofSlot_toSlot]; rfl⟩

theorem EncodesToRow.rsh32K (dst : RegNum) (imm : BitVec 32) : EncodesToRow.Statement (.rsh32K dst imm) :=
  ⟨Or.inl rfl, _, _, rfl, by rw [ofSlot_toSlot]; rfl⟩

theorem EncodesToRow.rsh32X (dst : RegNum) (src : RegNum) : EncodesToRow.Statement (.rsh32X dst src) :=
  ⟨Or.inl rfl, _, _, rfl, by rw [ofSlot_toSlot]; rfl⟩

theorem EncodesToRow.neg32 (dst : RegNum) : EncodesToRow.Statement (.neg32 dst) :=
  ⟨Or.inl rfl, _, _, rfl, by rw [ofSlot_toSlot]; rfl⟩

theorem EncodesToRow.mod32K (dst : RegNum) (imm : BitVec 32) : EncodesToRow.Statement (.mod32K dst imm) :=
  ⟨Or.inl rfl, _, _, rfl, by rw [ofSlot_toSlot]; rfl⟩

theorem EncodesToRow.mod32X (dst : RegNum) (src : RegNum) : EncodesToRow.Statement (.mod32X dst src) :=
  ⟨Or.inl rfl, _, _, rfl, by rw [ofSlot_toSlot]; rfl⟩

theorem EncodesToRow.xor32K (dst : RegNum) (imm : BitVec 32) : EncodesToRow.Statement (.xor32K dst imm) :=
  ⟨Or.inl rfl, _, _, rfl, by rw [ofSlot_toSlot]; rfl⟩

theorem EncodesToRow.xor32X (dst : RegNum) (src : RegNum) : EncodesToRow.Statement (.xor32X dst src) :=
  ⟨Or.inl rfl, _, _, rfl, by rw [ofSlot_toSlot]; rfl⟩

theorem EncodesToRow.mov32K (dst : RegNum) (imm : BitVec 32) : EncodesToRow.Statement (.mov32K dst imm) :=
  ⟨Or.inl rfl, _, _, rfl, by rw [ofSlot_toSlot]; rfl⟩

theorem EncodesToRow.mov32X (dst : RegNum) (src : RegNum) : EncodesToRow.Statement (.mov32X dst src) :=
  ⟨Or.inl rfl, _, _, rfl, by rw [ofSlot_toSlot]; rfl⟩

theorem EncodesToRow.arsh32K (dst : RegNum) (imm : BitVec 32) : EncodesToRow.Statement (.arsh32K dst imm) :=
  ⟨Or.inl rfl, _, _, rfl, by rw [ofSlot_toSlot]; rfl⟩

theorem EncodesToRow.arsh32X (dst : RegNum) (src : RegNum) : EncodesToRow.Statement (.arsh32X dst src) :=
  ⟨Or.inl rfl, _, _, rfl, by rw [ofSlot_toSlot]; rfl⟩

theorem EncodesToRow.add64K (dst : RegNum) (imm : BitVec 32) : EncodesToRow.Statement (.add64K dst imm) :=
  ⟨Or.inl rfl, _, _, rfl, by rw [ofSlot_toSlot]; rfl⟩

theorem EncodesToRow.add64X (dst : RegNum) (src : RegNum) : EncodesToRow.Statement (.add64X dst src) :=
  ⟨Or.inl rfl, _, _, rfl, by rw [ofSlot_toSlot]; rfl⟩

theorem EncodesToRow.sub64K (dst : RegNum) (imm : BitVec 32) : EncodesToRow.Statement (.sub64K dst imm) :=
  ⟨Or.inl rfl, _, _, rfl, by rw [ofSlot_toSlot]; rfl⟩

theorem EncodesToRow.sub64X (dst : RegNum) (src : RegNum) : EncodesToRow.Statement (.sub64X dst src) :=
  ⟨Or.inl rfl, _, _, rfl, by rw [ofSlot_toSlot]; rfl⟩

theorem EncodesToRow.mul64K (dst : RegNum) (imm : BitVec 32) : EncodesToRow.Statement (.mul64K dst imm) :=
  ⟨Or.inl rfl, _, _, rfl, by rw [ofSlot_toSlot]; rfl⟩

theorem EncodesToRow.mul64X (dst : RegNum) (src : RegNum) : EncodesToRow.Statement (.mul64X dst src) :=
  ⟨Or.inl rfl, _, _, rfl, by rw [ofSlot_toSlot]; rfl⟩

theorem EncodesToRow.div64K (dst : RegNum) (imm : BitVec 32) : EncodesToRow.Statement (.div64K dst imm) :=
  ⟨Or.inl rfl, _, _, rfl, by rw [ofSlot_toSlot]; rfl⟩

theorem EncodesToRow.div64X (dst : RegNum) (src : RegNum) : EncodesToRow.Statement (.div64X dst src) :=
  ⟨Or.inl rfl, _, _, rfl, by rw [ofSlot_toSlot]; rfl⟩

theorem EncodesToRow.or64K (dst : RegNum) (imm : BitVec 32) : EncodesToRow.Statement (.or64K dst imm) :=
  ⟨Or.inl rfl, _, _, rfl, by rw [ofSlot_toSlot]; rfl⟩

theorem EncodesToRow.or64X (dst : RegNum) (src : RegNum) : EncodesToRow.Statement (.or64X dst src) :=
  ⟨Or.inl rfl, _, _, rfl, by rw [ofSlot_toSlot]; rfl⟩

theorem EncodesToRow.and64K (dst : RegNum) (imm : BitVec 32) : EncodesToRow.Statement (.and64K dst imm) :=
  ⟨Or.inl rfl, _, _, rfl, by rw [ofSlot_toSlot]; rfl⟩

theorem EncodesToRow.and64X (dst : RegNum) (src : RegNum) : EncodesToRow.Statement (.and64X dst src) :=
  ⟨Or.inl rfl, _, _, rfl, by rw [ofSlot_toSlot]; rfl⟩

theorem EncodesToRow.lsh64K (dst : RegNum) (imm : BitVec 32) : EncodesToRow.Statement (.lsh64K dst imm) :=
  ⟨Or.inl rfl, _, _, rfl, by rw [ofSlot_toSlot]; rfl⟩

theorem EncodesToRow.lsh64X (dst : RegNum) (src : RegNum) : EncodesToRow.Statement (.lsh64X dst src) :=
  ⟨Or.inl rfl, _, _, rfl, by rw [ofSlot_toSlot]; rfl⟩

theorem EncodesToRow.rsh64K (dst : RegNum) (imm : BitVec 32) : EncodesToRow.Statement (.rsh64K dst imm) :=
  ⟨Or.inl rfl, _, _, rfl, by rw [ofSlot_toSlot]; rfl⟩

theorem EncodesToRow.rsh64X (dst : RegNum) (src : RegNum) : EncodesToRow.Statement (.rsh64X dst src) :=
  ⟨Or.inl rfl, _, _, rfl, by rw [ofSlot_toSlot]; rfl⟩

theorem EncodesToRow.neg64 (dst : RegNum) : EncodesToRow.Statement (.neg64 dst) :=
  ⟨Or.inl rfl, _, _, rfl, by rw [ofSlot_toSlot]; rfl⟩

theorem EncodesToRow.mod64K (dst : RegNum) (imm : BitVec 32) : EncodesToRow.Statement (.mod64K dst imm) :=
  ⟨Or.inl rfl, _, _, rfl, by rw [ofSlot_toSlot]; rfl⟩

theorem EncodesToRow.mod64X (dst : RegNum) (src : RegNum) : EncodesToRow.Statement (.mod64X dst src) :=
  ⟨Or.inl rfl, _, _, rfl, by rw [ofSlot_toSlot]; rfl⟩

theorem EncodesToRow.xor64K (dst : RegNum) (imm : BitVec 32) : EncodesToRow.Statement (.xor64K dst imm) :=
  ⟨Or.inl rfl, _, _, rfl, by rw [ofSlot_toSlot]; rfl⟩

theorem EncodesToRow.xor64X (dst : RegNum) (src : RegNum) : EncodesToRow.Statement (.xor64X dst src) :=
  ⟨Or.inl rfl, _, _, rfl, by rw [ofSlot_toSlot]; rfl⟩

theorem EncodesToRow.mov64K (dst : RegNum) (imm : BitVec 32) : EncodesToRow.Statement (.mov64K dst imm) :=
  ⟨Or.inl rfl, _, _, rfl, by rw [ofSlot_toSlot]; rfl⟩

theorem EncodesToRow.mov64X (dst : RegNum) (src : RegNum) : EncodesToRow.Statement (.mov64X dst src) :=
  ⟨Or.inl rfl, _, _, rfl, by rw [ofSlot_toSlot]; rfl⟩

theorem EncodesToRow.arsh64K (dst : RegNum) (imm : BitVec 32) : EncodesToRow.Statement (.arsh64K dst imm) :=
  ⟨Or.inl rfl, _, _, rfl, by rw [ofSlot_toSlot]; rfl⟩

theorem EncodesToRow.arsh64X (dst : RegNum) (src : RegNum) : EncodesToRow.Statement (.arsh64X dst src) :=
  ⟨Or.inl rfl, _, _, rfl, by rw [ofSlot_toSlot]; rfl⟩

theorem EncodesToRow.le16 (dst : RegNum) : EncodesToRow.Statement (.le16 dst) :=
  ⟨Or.inl rfl, _, _, rfl, by rw [ofSlot_toSlot]; rfl⟩

theorem EncodesToRow.le32 (dst : RegNum) : EncodesToRow.Statement (.le32 dst) :=
  ⟨Or.inl rfl, _, _, rfl, by rw [ofSlot_toSlot]; rfl⟩

theorem EncodesToRow.le64 (dst : RegNum) : EncodesToRow.Statement (.le64 dst) :=
  ⟨Or.inl rfl, _, _, rfl, by rw [ofSlot_toSlot]; rfl⟩

theorem EncodesToRow.be16 (dst : RegNum) : EncodesToRow.Statement (.be16 dst) :=
  ⟨Or.inl rfl, _, _, rfl, by rw [ofSlot_toSlot]; rfl⟩

theorem EncodesToRow.be32 (dst : RegNum) : EncodesToRow.Statement (.be32 dst) :=
  ⟨Or.inl rfl, _, _, rfl, by rw [ofSlot_toSlot]; rfl⟩

theorem EncodesToRow.be64 (dst : RegNum) : EncodesToRow.Statement (.be64 dst) :=
  ⟨Or.inl rfl, _, _, rfl, by rw [ofSlot_toSlot]; rfl⟩

theorem EncodesToRow.ja (off : BitVec 16) : EncodesToRow.Statement (.ja off) :=
  ⟨Or.inl rfl, _, _, rfl, by rw [ofSlot_toSlot]; rfl⟩

theorem EncodesToRow.jeq64K (dst : RegNum) (imm : BitVec 32) (off : BitVec 16) : EncodesToRow.Statement (.jeq64K dst imm off) :=
  ⟨Or.inl rfl, _, _, rfl, by rw [ofSlot_toSlot]; rfl⟩

theorem EncodesToRow.jeq64X (dst : RegNum) (src : RegNum) (off : BitVec 16) : EncodesToRow.Statement (.jeq64X dst src off) :=
  ⟨Or.inl rfl, _, _, rfl, by rw [ofSlot_toSlot]; rfl⟩

theorem EncodesToRow.jgt64K (dst : RegNum) (imm : BitVec 32) (off : BitVec 16) : EncodesToRow.Statement (.jgt64K dst imm off) :=
  ⟨Or.inl rfl, _, _, rfl, by rw [ofSlot_toSlot]; rfl⟩

theorem EncodesToRow.jgt64X (dst : RegNum) (src : RegNum) (off : BitVec 16) : EncodesToRow.Statement (.jgt64X dst src off) :=
  ⟨Or.inl rfl, _, _, rfl, by rw [ofSlot_toSlot]; rfl⟩

theorem EncodesToRow.jge64K (dst : RegNum) (imm : BitVec 32) (off : BitVec 16) : EncodesToRow.Statement (.jge64K dst imm off) :=
  ⟨Or.inl rfl, _, _, rfl, by rw [ofSlot_toSlot]; rfl⟩

theorem EncodesToRow.jge64X (dst : RegNum) (src : RegNum) (off : BitVec 16) : EncodesToRow.Statement (.jge64X dst src off) :=
  ⟨Or.inl rfl, _, _, rfl, by rw [ofSlot_toSlot]; rfl⟩

theorem EncodesToRow.jset64K (dst : RegNum) (imm : BitVec 32) (off : BitVec 16) : EncodesToRow.Statement (.jset64K dst imm off) :=
  ⟨Or.inl rfl, _, _, rfl, by rw [ofSlot_toSlot]; rfl⟩

theorem EncodesToRow.jset64X (dst : RegNum) (src : RegNum) (off : BitVec 16) : EncodesToRow.Statement (.jset64X dst src off) :=
  ⟨Or.inl rfl, _, _, rfl, by rw [ofSlot_toSlot]; rfl⟩

theorem EncodesToRow.jne64K (dst : RegNum) (imm : BitVec 32) (off : BitVec 16) : EncodesToRow.Statement (.jne64K dst imm off) :=
  ⟨Or.inl rfl, _, _, rfl, by rw [ofSlot_toSlot]; rfl⟩

theorem EncodesToRow.jne64X (dst : RegNum) (src : RegNum) (off : BitVec 16) : EncodesToRow.Statement (.jne64X dst src off) :=
  ⟨Or.inl rfl, _, _, rfl, by rw [ofSlot_toSlot]; rfl⟩

theorem EncodesToRow.jsgt64K (dst : RegNum) (imm : BitVec 32) (off : BitVec 16) : EncodesToRow.Statement (.jsgt64K dst imm off) :=
  ⟨Or.inl rfl, _, _, rfl, by rw [ofSlot_toSlot]; rfl⟩

theorem EncodesToRow.jsgt64X (dst : RegNum) (src : RegNum) (off : BitVec 16) : EncodesToRow.Statement (.jsgt64X dst src off) :=
  ⟨Or.inl rfl, _, _, rfl, by rw [ofSlot_toSlot]; rfl⟩

theorem EncodesToRow.jsge64K (dst : RegNum) (imm : BitVec 32) (off : BitVec 16) : EncodesToRow.Statement (.jsge64K dst imm off) :=
  ⟨Or.inl rfl, _, _, rfl, by rw [ofSlot_toSlot]; rfl⟩

theorem EncodesToRow.jsge64X (dst : RegNum) (src : RegNum) (off : BitVec 16) : EncodesToRow.Statement (.jsge64X dst src off) :=
  ⟨Or.inl rfl, _, _, rfl, by rw [ofSlot_toSlot]; rfl⟩

theorem EncodesToRow.jlt64K (dst : RegNum) (imm : BitVec 32) (off : BitVec 16) : EncodesToRow.Statement (.jlt64K dst imm off) :=
  ⟨Or.inl rfl, _, _, rfl, by rw [ofSlot_toSlot]; rfl⟩

theorem EncodesToRow.jlt64X (dst : RegNum) (src : RegNum) (off : BitVec 16) : EncodesToRow.Statement (.jlt64X dst src off) :=
  ⟨Or.inl rfl, _, _, rfl, by rw [ofSlot_toSlot]; rfl⟩

theorem EncodesToRow.jle64K (dst : RegNum) (imm : BitVec 32) (off : BitVec 16) : EncodesToRow.Statement (.jle64K dst imm off) :=
  ⟨Or.inl rfl, _, _, rfl, by rw [ofSlot_toSlot]; rfl⟩

theorem EncodesToRow.jle64X (dst : RegNum) (src : RegNum) (off : BitVec 16) : EncodesToRow.Statement (.jle64X dst src off) :=
  ⟨Or.inl rfl, _, _, rfl, by rw [ofSlot_toSlot]; rfl⟩

theorem EncodesToRow.jslt64K (dst : RegNum) (imm : BitVec 32) (off : BitVec 16) : EncodesToRow.Statement (.jslt64K dst imm off) :=
  ⟨Or.inl rfl, _, _, rfl, by rw [ofSlot_toSlot]; rfl⟩

theorem EncodesToRow.jslt64X (dst : RegNum) (src : RegNum) (off : BitVec 16) : EncodesToRow.Statement (.jslt64X dst src off) :=
  ⟨Or.inl rfl, _, _, rfl, by rw [ofSlot_toSlot]; rfl⟩

theorem EncodesToRow.jsle64K (dst : RegNum) (imm : BitVec 32) (off : BitVec 16) : EncodesToRow.Statement (.jsle64K dst imm off) :=
  ⟨Or.inl rfl, _, _, rfl, by rw [ofSlot_toSlot]; rfl⟩

theorem EncodesToRow.jsle64X (dst : RegNum) (src : RegNum) (off : BitVec 16) : EncodesToRow.Statement (.jsle64X dst src off) :=
  ⟨Or.inl rfl, _, _, rfl, by rw [ofSlot_toSlot]; rfl⟩

theorem EncodesToRow.jeq32K (dst : RegNum) (imm : BitVec 32) (off : BitVec 16) : EncodesToRow.Statement (.jeq32K dst imm off) :=
  ⟨Or.inl rfl, _, _, rfl, by rw [ofSlot_toSlot]; rfl⟩

theorem EncodesToRow.jeq32X (dst : RegNum) (src : RegNum) (off : BitVec 16) : EncodesToRow.Statement (.jeq32X dst src off) :=
  ⟨Or.inl rfl, _, _, rfl, by rw [ofSlot_toSlot]; rfl⟩

theorem EncodesToRow.jgt32K (dst : RegNum) (imm : BitVec 32) (off : BitVec 16) : EncodesToRow.Statement (.jgt32K dst imm off) :=
  ⟨Or.inl rfl, _, _, rfl, by rw [ofSlot_toSlot]; rfl⟩

theorem EncodesToRow.jgt32X (dst : RegNum) (src : RegNum) (off : BitVec 16) : EncodesToRow.Statement (.jgt32X dst src off) :=
  ⟨Or.inl rfl, _, _, rfl, by rw [ofSlot_toSlot]; rfl⟩

theorem EncodesToRow.jge32K (dst : RegNum) (imm : BitVec 32) (off : BitVec 16) : EncodesToRow.Statement (.jge32K dst imm off) :=
  ⟨Or.inl rfl, _, _, rfl, by rw [ofSlot_toSlot]; rfl⟩

theorem EncodesToRow.jge32X (dst : RegNum) (src : RegNum) (off : BitVec 16) : EncodesToRow.Statement (.jge32X dst src off) :=
  ⟨Or.inl rfl, _, _, rfl, by rw [ofSlot_toSlot]; rfl⟩

theorem EncodesToRow.jset32K (dst : RegNum) (imm : BitVec 32) (off : BitVec 16) : EncodesToRow.Statement (.jset32K dst imm off) :=
  ⟨Or.inl rfl, _, _, rfl, by rw [ofSlot_toSlot]; rfl⟩

theorem EncodesToRow.jset32X (dst : RegNum) (src : RegNum) (off : BitVec 16) : EncodesToRow.Statement (.jset32X dst src off) :=
  ⟨Or.inl rfl, _, _, rfl, by rw [ofSlot_toSlot]; rfl⟩

theorem EncodesToRow.jne32K (dst : RegNum) (imm : BitVec 32) (off : BitVec 16) : EncodesToRow.Statement (.jne32K dst imm off) :=
  ⟨Or.inl rfl, _, _, rfl, by rw [ofSlot_toSlot]; rfl⟩

theorem EncodesToRow.jne32X (dst : RegNum) (src : RegNum) (off : BitVec 16) : EncodesToRow.Statement (.jne32X dst src off) :=
  ⟨Or.inl rfl, _, _, rfl, by rw [ofSlot_toSlot]; rfl⟩

theorem EncodesToRow.jsgt32K (dst : RegNum) (imm : BitVec 32) (off : BitVec 16) : EncodesToRow.Statement (.jsgt32K dst imm off) :=
  ⟨Or.inl rfl, _, _, rfl, by rw [ofSlot_toSlot]; rfl⟩

theorem EncodesToRow.jsgt32X (dst : RegNum) (src : RegNum) (off : BitVec 16) : EncodesToRow.Statement (.jsgt32X dst src off) :=
  ⟨Or.inl rfl, _, _, rfl, by rw [ofSlot_toSlot]; rfl⟩

theorem EncodesToRow.jsge32K (dst : RegNum) (imm : BitVec 32) (off : BitVec 16) : EncodesToRow.Statement (.jsge32K dst imm off) :=
  ⟨Or.inl rfl, _, _, rfl, by rw [ofSlot_toSlot]; rfl⟩

theorem EncodesToRow.jsge32X (dst : RegNum) (src : RegNum) (off : BitVec 16) : EncodesToRow.Statement (.jsge32X dst src off) :=
  ⟨Or.inl rfl, _, _, rfl, by rw [ofSlot_toSlot]; rfl⟩

theorem EncodesToRow.jlt32K (dst : RegNum) (imm : BitVec 32) (off : BitVec 16) : EncodesToRow.Statement (.jlt32K dst imm off) :=
  ⟨Or.inl rfl, _, _, rfl, by rw [ofSlot_toSlot]; rfl⟩

theorem EncodesToRow.jlt32X (dst : RegNum) (src : RegNum) (off : BitVec 16) : EncodesToRow.Statement (.jlt32X dst src off) :=
  ⟨Or.inl rfl, _, _, rfl, by rw [ofSlot_toSlot]; rfl⟩

theorem EncodesToRow.jle32K (dst : RegNum) (imm : BitVec 32) (off : BitVec 16) : EncodesToRow.Statement (.jle32K dst imm off) :=
  ⟨Or.inl rfl, _, _, rfl, by rw [ofSlot_toSlot]; rfl⟩

theorem EncodesToRow.jle32X (dst : RegNum) (src : RegNum) (off : BitVec 16) : EncodesToRow.Statement (.jle32X dst src off) :=
  ⟨Or.inl rfl, _, _, rfl, by rw [ofSlot_toSlot]; rfl⟩

theorem EncodesToRow.jslt32K (dst : RegNum) (imm : BitVec 32) (off : BitVec 16) : EncodesToRow.Statement (.jslt32K dst imm off) :=
  ⟨Or.inl rfl, _, _, rfl, by rw [ofSlot_toSlot]; rfl⟩

theorem EncodesToRow.jslt32X (dst : RegNum) (src : RegNum) (off : BitVec 16) : EncodesToRow.Statement (.jslt32X dst src off) :=
  ⟨Or.inl rfl, _, _, rfl, by rw [ofSlot_toSlot]; rfl⟩

theorem EncodesToRow.jsle32K (dst : RegNum) (imm : BitVec 32) (off : BitVec 16) : EncodesToRow.Statement (.jsle32K dst imm off) :=
  ⟨Or.inl rfl, _, _, rfl, by rw [ofSlot_toSlot]; rfl⟩

theorem EncodesToRow.jsle32X (dst : RegNum) (src : RegNum) (off : BitVec 16) : EncodesToRow.Statement (.jsle32X dst src off) :=
  ⟨Or.inl rfl, _, _, rfl, by rw [ofSlot_toSlot]; rfl⟩

theorem EncodesToRow.callHelper (id : BitVec 32) : EncodesToRow.Statement (.callHelper id) :=
  ⟨Or.inl rfl, _, _, rfl, by rw [ofSlot_toSlot]; rfl⟩

theorem EncodesToRow.callLocal (off : BitVec 16) (imm : BitVec 32) : EncodesToRow.Statement (.callLocal off imm) :=
  ⟨Or.inl rfl, _, _, rfl, by rw [ofSlot_toSlot]; rfl⟩

theorem EncodesToRow.callRuntime (id : BitVec 32) : EncodesToRow.Statement (.callRuntime id) :=
  ⟨Or.inl rfl, _, _, rfl, by rw [ofSlot_toSlot]; rfl⟩

theorem EncodesToRow.exit : EncodesToRow.Statement (.exit) :=
  ⟨Or.inl rfl, _, _, rfl, by rw [ofSlot_toSlot]; rfl⟩

theorem EncodesToRow.ldxB (dst : RegNum) (src : RegNum) (off : BitVec 16) : EncodesToRow.Statement (.ldxB dst src off) :=
  ⟨Or.inl rfl, _, _, rfl, by rw [ofSlot_toSlot]; rfl⟩

theorem EncodesToRow.ldxH (dst : RegNum) (src : RegNum) (off : BitVec 16) : EncodesToRow.Statement (.ldxH dst src off) :=
  ⟨Or.inl rfl, _, _, rfl, by rw [ofSlot_toSlot]; rfl⟩

theorem EncodesToRow.ldxW (dst : RegNum) (src : RegNum) (off : BitVec 16) : EncodesToRow.Statement (.ldxW dst src off) :=
  ⟨Or.inl rfl, _, _, rfl, by rw [ofSlot_toSlot]; rfl⟩

theorem EncodesToRow.ldxDW (dst : RegNum) (src : RegNum) (off : BitVec 16) : EncodesToRow.Statement (.ldxDW dst src off) :=
  ⟨Or.inl rfl, _, _, rfl, by rw [ofSlot_toSlot]; rfl⟩

theorem EncodesToRow.stB (dst : RegNum) (off : BitVec 16) (imm : BitVec 32) : EncodesToRow.Statement (.stB dst off imm) :=
  ⟨Or.inl rfl, _, _, rfl, by rw [ofSlot_toSlot]; rfl⟩

theorem EncodesToRow.stH (dst : RegNum) (off : BitVec 16) (imm : BitVec 32) : EncodesToRow.Statement (.stH dst off imm) :=
  ⟨Or.inl rfl, _, _, rfl, by rw [ofSlot_toSlot]; rfl⟩

theorem EncodesToRow.stW (dst : RegNum) (off : BitVec 16) (imm : BitVec 32) : EncodesToRow.Statement (.stW dst off imm) :=
  ⟨Or.inl rfl, _, _, rfl, by rw [ofSlot_toSlot]; rfl⟩

theorem EncodesToRow.stDW (dst : RegNum) (off : BitVec 16) (imm : BitVec 32) : EncodesToRow.Statement (.stDW dst off imm) :=
  ⟨Or.inl rfl, _, _, rfl, by rw [ofSlot_toSlot]; rfl⟩

theorem EncodesToRow.stxB (dst : RegNum) (off : BitVec 16) (src : RegNum) : EncodesToRow.Statement (.stxB dst off src) :=
  ⟨Or.inl rfl, _, _, rfl, by rw [ofSlot_toSlot]; rfl⟩

theorem EncodesToRow.stxH (dst : RegNum) (off : BitVec 16) (src : RegNum) : EncodesToRow.Statement (.stxH dst off src) :=
  ⟨Or.inl rfl, _, _, rfl, by rw [ofSlot_toSlot]; rfl⟩

theorem EncodesToRow.stxW (dst : RegNum) (off : BitVec 16) (src : RegNum) : EncodesToRow.Statement (.stxW dst off src) :=
  ⟨Or.inl rfl, _, _, rfl, by rw [ofSlot_toSlot]; rfl⟩

theorem EncodesToRow.stxDW (dst : RegNum) (off : BitVec 16) (src : RegNum) : EncodesToRow.Statement (.stxDW dst off src) :=
  ⟨Or.inl rfl, _, _, rfl, by rw [ofSlot_toSlot]; rfl⟩

theorem EncodesToRow.atomicAdd32 (dst : RegNum) (off : BitVec 16) (src : RegNum) : EncodesToRow.Statement (.atomicAdd32 dst off src) :=
  ⟨Or.inl rfl, _, _, rfl, by rw [ofSlot_toSlot]; rfl⟩

theorem EncodesToRow.atomicFetchAdd32 (dst : RegNum) (off : BitVec 16) (src : RegNum) : EncodesToRow.Statement (.atomicFetchAdd32 dst off src) :=
  ⟨Or.inl rfl, _, _, rfl, by rw [ofSlot_toSlot]; rfl⟩

theorem EncodesToRow.atomicOr32 (dst : RegNum) (off : BitVec 16) (src : RegNum) : EncodesToRow.Statement (.atomicOr32 dst off src) :=
  ⟨Or.inl rfl, _, _, rfl, by rw [ofSlot_toSlot]; rfl⟩

theorem EncodesToRow.atomicFetchOr32 (dst : RegNum) (off : BitVec 16) (src : RegNum) : EncodesToRow.Statement (.atomicFetchOr32 dst off src) :=
  ⟨Or.inl rfl, _, _, rfl, by rw [ofSlot_toSlot]; rfl⟩

theorem EncodesToRow.atomicAnd32 (dst : RegNum) (off : BitVec 16) (src : RegNum) : EncodesToRow.Statement (.atomicAnd32 dst off src) :=
  ⟨Or.inl rfl, _, _, rfl, by rw [ofSlot_toSlot]; rfl⟩

theorem EncodesToRow.atomicFetchAnd32 (dst : RegNum) (off : BitVec 16) (src : RegNum) : EncodesToRow.Statement (.atomicFetchAnd32 dst off src) :=
  ⟨Or.inl rfl, _, _, rfl, by rw [ofSlot_toSlot]; rfl⟩

theorem EncodesToRow.atomicXor32 (dst : RegNum) (off : BitVec 16) (src : RegNum) : EncodesToRow.Statement (.atomicXor32 dst off src) :=
  ⟨Or.inl rfl, _, _, rfl, by rw [ofSlot_toSlot]; rfl⟩

theorem EncodesToRow.atomicFetchXor32 (dst : RegNum) (off : BitVec 16) (src : RegNum) : EncodesToRow.Statement (.atomicFetchXor32 dst off src) :=
  ⟨Or.inl rfl, _, _, rfl, by rw [ofSlot_toSlot]; rfl⟩

theorem EncodesToRow.atomicXchg32 (dst : RegNum) (off : BitVec 16) (src : RegNum) : EncodesToRow.Statement (.atomicXchg32 dst off src) :=
  ⟨Or.inl rfl, _, _, rfl, by rw [ofSlot_toSlot]; rfl⟩

theorem EncodesToRow.atomicCmpxchg32 (dst : RegNum) (off : BitVec 16) (src : RegNum) : EncodesToRow.Statement (.atomicCmpxchg32 dst off src) :=
  ⟨Or.inl rfl, _, _, rfl, by rw [ofSlot_toSlot]; rfl⟩

theorem EncodesToRow.atomicAdd64 (dst : RegNum) (off : BitVec 16) (src : RegNum) : EncodesToRow.Statement (.atomicAdd64 dst off src) :=
  ⟨Or.inl rfl, _, _, rfl, by rw [ofSlot_toSlot]; rfl⟩

theorem EncodesToRow.atomicFetchAdd64 (dst : RegNum) (off : BitVec 16) (src : RegNum) : EncodesToRow.Statement (.atomicFetchAdd64 dst off src) :=
  ⟨Or.inl rfl, _, _, rfl, by rw [ofSlot_toSlot]; rfl⟩

theorem EncodesToRow.atomicOr64 (dst : RegNum) (off : BitVec 16) (src : RegNum) : EncodesToRow.Statement (.atomicOr64 dst off src) :=
  ⟨Or.inl rfl, _, _, rfl, by rw [ofSlot_toSlot]; rfl⟩

theorem EncodesToRow.atomicFetchOr64 (dst : RegNum) (off : BitVec 16) (src : RegNum) : EncodesToRow.Statement (.atomicFetchOr64 dst off src) :=
  ⟨Or.inl rfl, _, _, rfl, by rw [ofSlot_toSlot]; rfl⟩

theorem EncodesToRow.atomicAnd64 (dst : RegNum) (off : BitVec 16) (src : RegNum) : EncodesToRow.Statement (.atomicAnd64 dst off src) :=
  ⟨Or.inl rfl, _, _, rfl, by rw [ofSlot_toSlot]; rfl⟩

theorem EncodesToRow.atomicFetchAnd64 (dst : RegNum) (off : BitVec 16) (src : RegNum) : EncodesToRow.Statement (.atomicFetchAnd64 dst off src) :=
  ⟨Or.inl rfl, _, _, rfl, by rw [ofSlot_toSlot]; rfl⟩

theorem EncodesToRow.atomicXor64 (dst : RegNum) (off : BitVec 16) (src : RegNum) : EncodesToRow.Statement (.atomicXor64 dst off src) :=
  ⟨Or.inl rfl, _, _, rfl, by rw [ofSlot_toSlot]; rfl⟩

theorem EncodesToRow.atomicFetchXor64 (dst : RegNum) (off : BitVec 16) (src : RegNum) : EncodesToRow.Statement (.atomicFetchXor64 dst off src) :=
  ⟨Or.inl rfl, _, _, rfl, by rw [ofSlot_toSlot]; rfl⟩

theorem EncodesToRow.atomicXchg64 (dst : RegNum) (off : BitVec 16) (src : RegNum) : EncodesToRow.Statement (.atomicXchg64 dst off src) :=
  ⟨Or.inl rfl, _, _, rfl, by rw [ofSlot_toSlot]; rfl⟩

theorem EncodesToRow.atomicCmpxchg64 (dst : RegNum) (off : BitVec 16) (src : RegNum) : EncodesToRow.Statement (.atomicCmpxchg64 dst off src) :=
  ⟨Or.inl rfl, _, _, rfl, by rw [ofSlot_toSlot]; rfl⟩

theorem EncodesToRow.ldImm64 (dst : RegNum) (imm : BitVec 32) (nextImm : BitVec 32) : EncodesToRow.Statement (.ldImm64 dst imm nextImm) :=
  ⟨Or.inr rfl, _, _, rfl, by rw [ofSlot_toSlot]; rfl⟩

theorem EncodesToRow.ldMapFd (dst : RegNum) (imm : BitVec 32) : EncodesToRow.Statement (.ldMapFd dst imm) :=
  ⟨Or.inr rfl, _, _, rfl, by rw [ofSlot_toSlot]; rfl⟩

theorem EncodesToRow.ldMapFdValue (dst : RegNum) (imm : BitVec 32) (nextImm : BitVec 32) : EncodesToRow.Statement (.ldMapFdValue dst imm nextImm) :=
  ⟨Or.inr rfl, _, _, rfl, by rw [ofSlot_toSlot]; rfl⟩

theorem EncodesToRow.ldVarAddr (dst : RegNum) (imm : BitVec 32) : EncodesToRow.Statement (.ldVarAddr dst imm) :=
  ⟨Or.inr rfl, _, _, rfl, by rw [ofSlot_toSlot]; rfl⟩

theorem EncodesToRow.ldCodeAddr (dst : RegNum) (imm : BitVec 32) : EncodesToRow.Statement (.ldCodeAddr dst imm) :=
  ⟨Or.inr rfl, _, _, rfl, by rw [ofSlot_toSlot]; rfl⟩

theorem EncodesToRow.ldMapIdx (dst : RegNum) (imm : BitVec 32) : EncodesToRow.Statement (.ldMapIdx dst imm) :=
  ⟨Or.inr rfl, _, _, rfl, by rw [ofSlot_toSlot]; rfl⟩

theorem EncodesToRow.ldMapIdxValue (dst : RegNum) (imm : BitVec 32) (nextImm : BitVec 32) : EncodesToRow.Statement (.ldMapIdxValue dst imm nextImm) :=
  ⟨Or.inr rfl, _, _, rfl, by rw [ofSlot_toSlot]; rfl⟩

theorem EncodesToRow.ldAbsW (dst : BitVec 4) (src : BitVec 4) (off : BitVec 16) (imm : BitVec 32) : EncodesToRow.Statement (.ldAbsW dst src off imm) :=
  ⟨Or.inl rfl, _, _, rfl, by rw [ofSlot_toSlot]; rfl⟩

theorem EncodesToRow.ldAbsH (dst : BitVec 4) (src : BitVec 4) (off : BitVec 16) (imm : BitVec 32) : EncodesToRow.Statement (.ldAbsH dst src off imm) :=
  ⟨Or.inl rfl, _, _, rfl, by rw [ofSlot_toSlot]; rfl⟩

theorem EncodesToRow.ldAbsB (dst : BitVec 4) (src : BitVec 4) (off : BitVec 16) (imm : BitVec 32) : EncodesToRow.Statement (.ldAbsB dst src off imm) :=
  ⟨Or.inl rfl, _, _, rfl, by rw [ofSlot_toSlot]; rfl⟩

theorem EncodesToRow.ldAbsDW (dst : BitVec 4) (src : BitVec 4) (off : BitVec 16) (imm : BitVec 32) : EncodesToRow.Statement (.ldAbsDW dst src off imm) :=
  ⟨Or.inl rfl, _, _, rfl, by rw [ofSlot_toSlot]; rfl⟩

theorem EncodesToRow.ldIndW (dst : BitVec 4) (src : BitVec 4) (off : BitVec 16) (imm : BitVec 32) : EncodesToRow.Statement (.ldIndW dst src off imm) :=
  ⟨Or.inl rfl, _, _, rfl, by rw [ofSlot_toSlot]; rfl⟩

theorem EncodesToRow.ldIndH (dst : BitVec 4) (src : BitVec 4) (off : BitVec 16) (imm : BitVec 32) : EncodesToRow.Statement (.ldIndH dst src off imm) :=
  ⟨Or.inl rfl, _, _, rfl, by rw [ofSlot_toSlot]; rfl⟩

theorem EncodesToRow.ldIndB (dst : BitVec 4) (src : BitVec 4) (off : BitVec 16) (imm : BitVec 32) : EncodesToRow.Statement (.ldIndB dst src off imm) :=
  ⟨Or.inl rfl, _, _, rfl, by rw [ofSlot_toSlot]; rfl⟩

theorem EncodesToRow.ldIndDW (dst : BitVec 4) (src : BitVec 4) (off : BitVec 16) (imm : BitVec 32) : EncodesToRow.Statement (.ldIndDW dst src off imm) :=
  ⟨Or.inl rfl, _, _, rfl, by rw [ofSlot_toSlot]; rfl⟩

theorem EncodesToRow.pseudoSlot (imm : BitVec 32) : EncodesToRow.Statement (.pseudoSlot imm) :=
  ⟨Or.inl rfl, _, _, rfl, by rw [ofSlot_toSlot]; rfl⟩

end Sys2Proof.Laws
end

