-- ==== Sys2Proof/Laws/Values.lean ====
section
/-! SUPPORT. The bytes of a value and the value of bytes: the shared operations against the weights of R52. -/

namespace Sys2Proof.Machine

/-- The bytes that a store takes from a value are its slices (R52). -/
theorem lowBytes_eq (n : Nat) (v : Word) : lowBytes n v = (List.range n).map (byteOf v) := by
  induction n generalizing v with
  | zero => rfl
  | succ n ih =>
    rw [lowBytes, ih, List.range_succ_eq_map, List.map_cons, List.map_map]
    have h0 : v.setWidth 8 = byteOf v 0 := by ext i hi; simp [byteOf]
    rw [h0]
    refine congrArg _ (List.map_congr_left fun k _ => ?_)
    ext i hi
    simp only [byteOf, Function.comp, BitVec.getElem_extractLsb', BitVec.getLsbD_ushiftRight]
    congr 1
    omega

/-- What a store leaves in memory, lowest address first (R52). -/
theorem inOrder_lowBytes (o : ByteOrder) (n : Nat) (v : Word) : inOrder o (lowBytes n v) = memoryImage o n v := by
  cases o
  · exact lowBytes_eq n v
  · simp only [inOrder, memoryImage, lowBytes_eq]
    apply List.ext_getElem
    · simp
    · intro i h1 h2
      simp at h1
      simp [List.getElem_reverse]

/-- The value of at most eight bytes, as a number. -/
theorem toNat_wordOfBytes (bs : List Byte) (h : bs.length ≤ 8) :
    (wordOfBytes bs).toNat = natOfBytes bs ∧ natOfBytes bs < 256 ^ bs.length := by
  induction bs with
  | nil => simp [wordOfBytes, natOfBytes]
  | cons b bs ih =>
    simp only [List.length_cons] at h
    obtain ⟨h1, h2⟩ := ih (by omega)
    have hb : b.toNat < 256 := b.isLt
    have hlt : natOfBytes bs < 2 ^ 56 := lt_of_lt_of_le h2 (by
      calc 256 ^ bs.length ≤ 256 ^ 7 := Nat.pow_le_pow_right (by omega) (by omega)
        _ = 2 ^ 56 := by norm_num)
    refine ⟨?_, ?_⟩
    · rw [wordOfBytes, natOfBytes, BitVec.toNat_or, BitVec.toNat_shiftLeft, h1, BitVec.toNat_setWidth,
        Nat.mod_eq_of_lt (by omega), Nat.shiftLeft_eq, Nat.mod_eq_of_lt (by omega), Nat.or_comm,
        show natOfBytes bs * 2 ^ 8 = 2 ^ 8 * natOfBytes bs by ring, ← Nat.two_pow_add_eq_or_of_lt (by omega)]
      omega
    · rw [natOfBytes, List.length_cons, pow_succ]
      omega

/-- The number that bytes denote, as a sum of weights (R52). -/
theorem natOfBytes_map (n : Nat) (f : Nat → Byte) :
    natOfBytes ((List.range n).map f) = ((List.range n).map fun i => (f i).toNat * 256 ^ i).sum := by
  induction n generalizing f with
  | zero => rfl
  | succ n ih =>
    rw [List.range_succ_eq_map, List.map_cons, List.map_cons, List.map_map, List.map_map, natOfBytes, ih,
      List.sum_cons, ← List.sum_map_mul_left]
    simp only [pow_zero, mul_one, Function.comp]
    congr 2
    apply List.map_congr_left
    intro k _
    simp only [Function.comp, Nat.succ_eq_add_one, pow_succ]
    ring

/-- The bytes read from memory, by address. -/
theorem bytesAt_eq (m : Memory) (a n : Nat) : bytesAt m a n = (List.range n).map fun i => byteAt m (a + i) := by
  induction n generalizing a with
  | zero => rfl
  | succ n ih =>
    rw [bytesAt, ih, List.range_succ_eq_map, List.map_cons, List.map_map]
    congr 1
    apply List.map_congr_left
    intro k _
    simp only [Function.comp]
    congr 1
    omega

theorem tornBytesAt_eq (s : State) (a n : Nat) :
    tornBytesAt s a n = (List.range n).map fun i => tornByteAt s (a + i) := by
  induction n generalizing a with
  | zero => rfl
  | succ n ih =>
    rw [tornBytesAt, ih, List.range_succ_eq_map, List.map_cons, List.map_map]
    congr 1
    apply List.map_congr_left
    intro k _
    simp only [Function.comp]
    congr 1
    omega

theorem reverse_range_map (n : Nat) (f : Nat → Byte) :
    ((List.range n).map f).reverse = (List.range n).map fun i => f (n - 1 - i) := by
  apply List.ext_getElem
  · simp
  · intro i h1 h2
    simp [List.getElem_reverse]

/-- The value of `n` bytes in an order (R52). -/
theorem toNat_ordered (o : ByteOrder) (read : Nat → Byte) (a n : Nat) (hn : n ≤ 8) :
    (wordOfBytes (inOrder o ((List.range n).map fun i => read (a + i)))).toNat = valueAt o read a n := by
  rw [(toNat_wordOfBytes _ (by simpa using hn)).1]
  cases o with
  | little => exact natOfBytes_map n _
  | big =>
    simp only [inOrder, reverse_range_map, natOfBytes_map, valueAt]
    have : ∀ f g : Nat → Nat, (∀ i < n, f i = g (n - 1 - i)) →
        ((List.range n).map f).sum = ((List.range n).map g).sum := by
      intro f g h
      rw [← List.sum_reverse, ← List.map_reverse]
      have : (List.range n).map g = ((List.range n).reverse).map f := by
        apply List.ext_getElem
        · simp
        · intro i h1 h2
          simp at h1
          simp only [List.getElem_map, List.getElem_range, List.getElem_reverse, List.length_range]
          rw [h _ (by omega)]
          congr 1
          omega
      rw [this]
    apply this
    intro i hi
    congr 2
    omega

/-- The value of an indivisible read (R52). -/
theorem toNat_readValue (s : State) (a n : Nat) (hn : n ≤ 8) :
    (readValue s a n).toNat = valueAt s.cfg.hostEndian (byteAt s.mem) a n := by
  rw [readValue, bytesAt_eq]
  exact toNat_ordered _ _ _ _ hn

/-- The low `8 * n` bits of a value (R54). -/
theorem toNat_truncTo (n : Nat) (v : Word) (hn : n ≤ 8) : (truncTo n v).toNat = v.toNat % 2 ^ (8 * n) := by
  have key : ∀ (n : Nat) (v : Word), natOfBytes (lowBytes n v) = v.toNat % 256 ^ n := by
    intro n
    induction n with
    | zero => intro v; simp [lowBytes, natOfBytes, Nat.mod_one]
    | succ n ih =>
      intro v
      rw [lowBytes, natOfBytes, ih, BitVec.toNat_setWidth, BitVec.toNat_ushiftRight, Nat.shiftRight_eq_div_pow,
        show (256 : Nat) ^ (n + 1) = 2 ^ 8 * 256 ^ n by rw [Nat.pow_succ, Nat.mul_comm]; norm_num, Nat.mod_mul]
      norm_num
  rw [truncTo, (toNat_wordOfBytes _ (by simpa using hn)).1, key, show (256 : Nat) = 2 ^ 8 by norm_num, ← pow_mul]

/-- A value of at most eight bytes survives the way through memory, cut to its width (R52). -/
theorem readValue_writeValue (s : State) (a n : Nat) (v : Word) :
    readValue (writeValue s a n v) a n = truncTo n v := by
  have h := bytesAt_storeBytes s.mem a (inOrder s.cfg.hostEndian (lowBytes n v))
  rw [inOrder_length, lowBytes_length] at h
  rw [readValue, writeValue_mem, writeValue_cfg, h, inOrder_inOrder, truncTo]

end Sys2Proof.Machine
end

