-- ==== Sys2Proof/Tests/Slice0.lean ====
section
/-! SUPPORT. Tests on fixed values. The expected results are those of the spec's own examples and test vectors
(`95_test_vectors.md`), or computed by hand from the rules named. -/

namespace Sys2Proof.Tests

open Sys2Proof.Machine

/-! ### Small states -/

/-- The spec's default parameters (R6). -/
abbrev specConfig : Config := Config.default

/-- The example platform of `95_test_vectors.md`: maps, variables and their addresses. -/
def platformConfig : Config :=
  { specConfig with
    mapsSupported := true
    varsSupported := true
    mapByFd := .table [(5, 0x70000000)]
    mapByIdx := .table [(2, 0x70000100)]
    mva := .table [(0x70000000, 0x20000), (0x70000100, 0x30000)]
    variableAddr := .table [(9, 0x40000)] }

/-- The example helper functions of `95_test_vectors.md`: 7 adds its two arguments, 9 returns 0xdead. -/
def helperConfig : Config :=
  { specConfig with
    helpers := [(7, ⟨2, false, [⟨.const 1, [⟨.op .add (.arg 0) (.arg 1), [], .const 0⟩]⟩]⟩),
      (9, ⟨0, false, [⟨.const 1, [⟨.const 0xdead, [], .const 0⟩]⟩]⟩)] }

/-- The example runtime function of `95_test_vectors.md`: 1 doubles its argument. -/
def runtimeConfig : Config :=
  { specConfig with runtimeFuncs := [(1, ⟨1, false, [⟨.const 1, [⟨.op .mul (.arg 0) (.const 2), [], .const 0⟩]⟩]⟩)] }

/-- A register of a small state: the value listed, x[10] = 0x10000 unless listed, else no value. -/
def regOfList (rs : List (Nat × Word)) (i : Nat) : Reg :=
  match rs.lookup i with
  | some v => Reg.of v
  | none => if i = 10 then Reg.of 0x10000 else Reg.none

/-- The registers of a small state. -/
def regFile (rs : List (Nat × Word)) : Vector Reg 11 := Vector.ofFn fun i => regOfList rs i.val

/-- Memory that holds runs of bytes. -/
def memoryOf : List (Nat × List Byte) → Memory
  | [] => []
  | (a, bs) :: rest => storeBytes (memoryOf rest) a bs

/-- A state at pc 0 of a program, with the registers and the bytes of memory listed. -/
def start (c : Config) (p : List Slot) (rs : List (Nat × Word)) (m : List (Nat × List Byte)) : State :=
  { State.entry { c with program := p } (memoryOf m) [] with x := regFile rs }

/-- The bytes from an address on are those listed. -/
def holds (m : Memory) (a : Nat) : List Byte → Bool
  | [] => true
  | b :: bs => lookupByte m a == some b && holds m (a + 1) bs

/-- One step gives a running state with the registers (none: no value), bytes and pc listed. -/
def gives (s : State) (rs : List (RegNum × Option Word)) (m : List (Nat × List Byte)) (pc : Int) : Bool :=
  match step s with
  | .next t => rs.all (fun e => t.x[e.1] == (e.2.elim Reg.none Reg.of)) && m.all (fun e => holds t.mem e.1 e.2) &&
      t.pc == pc && t.status == .running
  | .fault _ => false
  | .refused _ => false

/-- One step raises the fault. -/
def faults (s : State) (f : Fault) : Bool :=
  match step s with
  | .next _ => false
  | .fault g => g == f
  | .refused _ => false

/-- One step ends the run with the value. -/
def ends (s : State) (v : Word) : Bool :=
  match step s with
  | .next t => t.status == .ended v
  | .fault _ => false
  | .refused _ => false

/-- The word decodes to the instruction, and the instruction encodes to the word. -/
def readsBothWays (e : Nat × Nat × Instr) : Bool :=
  decodeTableWord e.1 e.2.1 == some e.2.2 &&
    encode e.2.2 == (List.range (e.1 / 64)).map fun i => BitVec.ofNat 64 (e.2.1 / 2 ^ (64 * i))

/-! ### Well-formedness: a term that each check refuses -/

theorem test_wf_alu_writes_r10 : (Instr.add64K 10 8).wf = false := by decide
theorem test_wf_load_writes_r10 : (Instr.ldxDW 10 1 0).wf = false := by decide
theorem test_wf_fetch_writes_r10 : (Instr.atomicFetchAdd64 1 0 10).wf = false := by decide
theorem test_wf_wide_writes_r10 : (Instr.ldImm64 10 1 0).wf = false := by decide
theorem test_wf_stores_take_r10 : (Instr.stxDW 10 0xfff8 10).wf = true := by decide
theorem test_wf_config_default : Config.default.wf = true := by decide
theorem test_wf_region_outside_space :
    { specConfig with regions := [⟨0xf000, 0x1000, true, true, false⟩, ⟨2 ^ 64 - 1, 2, true, true, false⟩] }.wf = false := by
  decide
theorem test_wf_regions_overlap :
    { specConfig with regions := [⟨0xf000, 0x1000, true, true, false⟩, ⟨0xffff, 2, true, true, false⟩] }.wf = false := by
  decide
theorem test_wf_no_stack_region : { specConfig with regions := [⟨0xf000, 0xfff, true, true, false⟩] }.wf = false := by
  decide
theorem test_wf_shared_stack : { specConfig with regions := [⟨0xf000, 0x1000, true, true, true⟩] }.wf = false := by decide
theorem test_wf_stack_too_large : { specConfig with regions := [⟨0xe000, 0x2000, true, true, false⟩] }.wf = false := by decide
theorem test_wf_stack_above_top : { specConfig with regions := [⟨0xf008, 0x1000, true, true, false⟩] }.wf = false := by decide
theorem test_wf_stack_top_unaligned :
    { specConfig with stackTop := 0x10001, regions := [⟨0xf001, 0x1000, true, true, false⟩] }.wf = false := by decide
theorem test_wf_no_frames :
    { specConfig with maxCallDepth := 0, regions := [⟨0x10000, 0, true, true, false⟩] }.wf = false := by decide
theorem test_wf_one_frame :
    { specConfig with maxCallDepth := 1, regions := [⟨0xfe00, 512, true, true, false⟩] }.wf = true := by decide
theorem test_wf_six_arguments : { specConfig with entryArgs := [1, 2, 3, 4, 5, 6] }.wf = false := by decide
theorem test_wf_description_names_no_such_argument :
    { specConfig with helpers := [(7, ⟨2, false, [⟨.const 1, [⟨.load 1 (.arg 2), [], .const 0⟩]⟩]⟩)] }.wf = false := by decide
theorem test_wf_case_without_outcome :
    { specConfig with runtimeFuncs := [(7, ⟨1, false, [⟨.const 1, []⟩]⟩)] }.wf = false := by decide
theorem test_wf_copy_function : { specConfig with helpers := [(8, copyFunction)] }.wf = true := by decide

/-- The example platform with the regions that its functions point into: the values of two maps, and a variable. -/
def platformWithRegions : Config :=
  { platformConfig with
    regions := specConfig.regions ++
      [⟨0x20000, 64, true, true, true⟩, ⟨0x30000, 64, true, false, true⟩, ⟨0x40000, 8, true, true, true⟩] }

theorem test_wf_platform : platformWithRegions.wf = true := by decide
theorem test_wf_platform_without_regions : platformConfig.wf = false := by decide
theorem test_wf_map_not_shared :
    { platformWithRegions with mva := .table [(0x70000000, 0xf000)] }.wf = false := by decide
theorem test_wf_map_value_inside_region :
    { platformWithRegions with mva := .table [(0x70000000, 0x20008)] }.wf = false := by decide
theorem test_wf_map_handle_in_region :
    { platformWithRegions with mapByFd := .table [(5, 0x2003f)] }.wf = false := by decide
theorem test_wf_map_index_handle_in_region :
    { platformWithRegions with mapByIdx := .table [(2, 0xf000)] }.wf = false := by decide
theorem test_wf_map_key_in_region :
    { platformWithRegions with mva := .table [(0x40000, 0x20000)] }.wf = false := by decide
theorem test_wf_variable_without_region :
    { platformWithRegions with variableAddr := .table [(9, 0x50000)] }.wf = false := by decide
theorem test_wf_unknown_platform : { platformWithRegions with mva := .free }.wf = false := by decide

/-! ### One word of each family, written out field by field: imm, offset, src, dst, opcode (R81) -/

theorem test_bits_alu32 : decodeTableWord 64
    (0x00000003#32 ++ 0x0000#16 ++ 0b0000#4 ++ 0b0001#4 ++ 0b1001_0_100#8 : Slot).toNat = some (.mod32K 1 3) := by decide
theorem test_bits_alu64 : decodeTableWord 64
    (0x00000000#32 ++ 0x0000#16 ++ 0b0010#4 ++ 0b0001#4 ++ 0b0001_1_111#8 : Slot).toNat = some (.sub64X 1 2) := by decide
theorem test_bits_byteswap : decodeTableWord 64
    (0x00000020#32 ++ 0x0000#16 ++ 0b0000#4 ++ 0b0011#4 ++ 0b1101_1_100#8 : Slot).toNat = some (.be32 3) := by decide
theorem test_bits_jump64 : decodeTableWord 64
    (0xffffffff#32 ++ 0x0005#16 ++ 0b0000#4 ++ 0b0001#4 ++ 0b0110_0_101#8 : Slot).toNat
      = some (.jsgt64K 1 0xffffffff 5) := by decide
theorem test_bits_jump32 : decodeTableWord 64
    (0x00000000#32 ++ 0xfffd#16 ++ 0b1010#4 ++ 0b0100#4 ++ 0b1011_1_110#8 : Slot).toNat
      = some (.jle32X 4 10 0xfffd) := by decide
theorem test_bits_call : decodeTableWord 64
    (0x00000007#32 ++ 0x0000#16 ++ 0b0010#4 ++ 0b0000#4 ++ 0b1000_0_101#8 : Slot).toNat = some (.callRuntime 7) := by decide
theorem test_bits_load : decodeTableWord 64
    (0x00000000#32 ++ 0xfffc#16 ++ 0b1010#4 ++ 0b0011#4 ++ 0b011_00_001#8 : Slot).toNat
      = some (.ldxW 3 10 0xfffc) := by decide
theorem test_bits_store : decodeTableWord 64
    (0x00000000#32 ++ 0xfffc#16 ++ 0b0011#4 ++ 0b1010#4 ++ 0b011_00_011#8 : Slot).toNat
      = some (.stxW 10 0xfffc 3) := by decide
theorem test_bits_atomic : decodeTableWord 64
    (0x000000f1#32 ++ 0x0008#16 ++ 0b0010#4 ++ 0b0001#4 ++ 0b110_11_011#8 : Slot).toNat
      = some (.atomicCmpxchg64 1 8 2) := by decide
theorem test_bits_imm64 : decodeTableWord 128
    ((0x11223344#32 ++ 0#32 : Slot) ++ (0x55667788#32 ++ 0x0000#16 ++ 0b0000#4 ++ 0b0001#4 ++ 0b000_11_000#8 : Slot)).toNat
      = some (.ldImm64 1 0x55667788 0x11223344) := by decide
theorem test_bits_legacy : decodeTableWord 64
    (0x00000004#32 ++ 0x0000#16 ++ 0b0001#4 ++ 0b0000#4 ++ 0b010_11_000#8 : Slot).toNat
      = some (.ldIndDW 0 1 0 4) := by decide

/-! ### Decoding: a word for every constructor (R81, R95, R98) -/

/-- BPF_ALU: 32-bit arithmetic (R120 to R149): words and the instructions they stand for. -/
def wordsAlu321 : List (Nat × Nat × Instr) :=
  [(64, 0xffffffff_00000104, .add32K 1 0xffffffff),
   (64, 0x00000000_0000210c, .add32X 1 2),
   (64, 0x00000001_00000114, .sub32K 1 1),
   (64, 0x00000000_0000331c, .sub32X 3 3),
   (64, 0x00010000_00000124, .mul32K 1 0x10000),
   (64, 0x00000000_0000212c, .mul32X 1 2),
   (64, 0x00000003_00000134, .div32K 1 3),
   (64, 0x00000000_0000213c, .div32X 1 2),
   (64, 0x80000000_00000144, .or32K 1 0x80000000),
   (64, 0x00000000_0000214c, .or32X 1 2),
   (64, 0xfffffff0_00000154, .and32K 1 0xfffffff0),
   (64, 0x00000000_0000215c, .and32X 1 2),
   (64, 0x0000001f_00000164, .lsh32K 1 0x1f),
   (64, 0x00000000_0000216c, .lsh32X 1 2)]

/-- BPF_ALU: 32-bit arithmetic (R120 to R149): words and the instructions they stand for. -/
def wordsAlu322 : List (Nat × Nat × Instr) :=
  [(64, 0x00000004_00000174, .rsh32K 1 4),
   (64, 0x00000000_0000217c, .rsh32X 1 2),
   (64, 0x00000000_00000184, .neg32 1),
   (64, 0x00000007_00000194, .mod32K 1 7),
   (64, 0x00000000_0000219c, .mod32X 1 2),
   (64, 0x00000ff0_000001a4, .xor32K 1 0xff0),
   (64, 0x00000000_000011ac, .xor32X 1 1),
   (64, 0xffffffff_000001b4, .mov32K 1 0xffffffff),
   (64, 0x00000000_000021bc, .mov32X 1 2),
   (64, 0x00000004_000001c4, .arsh32K 1 4),
   (64, 0x00000000_000021cc, .arsh32X 1 2)]

theorem test_decode_wordsAlu321 : wordsAlu321.all readsBothWays = true := by decide

theorem test_decode_wordsAlu322 : wordsAlu322.all readsBothWays = true := by decide

/-- BPF_ALU64: 64-bit arithmetic (R150 to R179): words and the instructions they stand for. -/
def wordsAlu641 : List (Nat × Nat × Instr) :=
  [(64, 0xffffffff_00000107, .add64K 1 0xffffffff),
   (64, 0x00000000_0000210f, .add64X 1 2),
   (64, 0x00000001_00000117, .sub64K 1 1),
   (64, 0x00000000_0000211f, .sub64X 1 2),
   (64, 0xfffffffe_00000127, .mul64K 1 0xfffffffe),
   (64, 0x00000000_0000212f, .mul64X 1 2),
   (64, 0x0000000a_00000137, .div64K 1 10),
   (64, 0x00000000_0000213f, .div64X 1 2),
   (64, 0x80000000_00000147, .or64K 1 0x80000000),
   (64, 0x00000000_0000214f, .or64X 1 2),
   (64, 0xfffffff0_00000157, .and64K 1 0xfffffff0),
   (64, 0x00000000_0000215f, .and64X 1 2),
   (64, 0x0000003f_00000167, .lsh64K 1 0x3f),
   (64, 0x00000000_0000216f, .lsh64X 1 2)]

/-- BPF_ALU64: 64-bit arithmetic (R150 to R179): words and the instructions they stand for. -/
def wordsAlu642 : List (Nat × Nat × Instr) :=
  [(64, 0x00000004_00000177, .rsh64K 1 4),
   (64, 0x00000000_0000217f, .rsh64X 1 2),
   (64, 0x00000000_00000187, .neg64 1),
   (64, 0x0000000a_00000197, .mod64K 1 10),
   (64, 0x00000000_0000219f, .mod64X 1 2),
   (64, 0xffffffff_000001a7, .xor64K 1 0xffffffff),
   (64, 0x00000000_000021af, .xor64X 1 2),
   (64, 0xfffffffe_000001b7, .mov64K 1 0xfffffffe),
   (64, 0x00000000_0000a1bf, .mov64X 1 10),
   (64, 0x00000004_000001c7, .arsh64K 1 4),
   (64, 0x00000000_000021cf, .arsh64X 1 2)]

theorem test_decode_wordsAlu641 : wordsAlu641.all readsBothWays = true := by decide

theorem test_decode_wordsAlu642 : wordsAlu642.all readsBothWays = true := by decide

/-- BPF_END: byte swaps (R180 to R188): words and the instructions they stand for. -/
def wordsByteSwap : List (Nat × Nat × Instr) :=
  [(64, 0x00000010_000001d4, .le16 1),
   (64, 0x00000020_000001d4, .le32 1),
   (64, 0x00000040_000001d4, .le64 1),
   (64, 0x00000010_000001dc, .be16 1),
   (64, 0x00000020_000001dc, .be32 1),
   (64, 0x00000040_000001dc, .be64 1)]

theorem test_decode_wordsByteSwap : wordsByteSwap.all readsBothWays = true := by decide

/-- BPF_JMP: jumps on 64-bit operands (R190 to R216): words and the instructions they stand for. -/
def wordsJump641 : List (Nat × Nat × Instr) :=
  [(64, 0x00000000_00050005, .ja 5),
   (64, 0xffffffff_00050115, .jeq64K 1 0xffffffff 5),
   (64, 0x00000000_0005211d, .jeq64X 1 2 5),
   (64, 0xffffffff_00050125, .jgt64K 1 0xffffffff 5),
   (64, 0x00000000_0005212d, .jgt64X 1 2 5),
   (64, 0xffffffff_00050135, .jge64K 1 0xffffffff 5),
   (64, 0x00000000_0005213d, .jge64X 1 2 5),
   (64, 0x80000000_00050145, .jset64K 1 0x80000000 5),
   (64, 0x00000000_0005214d, .jset64X 1 2 5),
   (64, 0x00000000_00050155, .jne64K 1 0 5),
   (64, 0x00000000_0005115d, .jne64X 1 1 5),
   (64, 0xffffffff_00050165, .jsgt64K 1 0xffffffff 5),
   (64, 0x00000000_0005216d, .jsgt64X 1 2 5),
   (64, 0xffffffff_00050175, .jsge64K 1 0xffffffff 5)]

/-- BPF_JMP: jumps on 64-bit operands (R190 to R216): words and the instructions they stand for. -/
def wordsJump642 : List (Nat × Nat × Instr) :=
  [(64, 0x00000000_0005217d, .jsge64X 1 2 5),
   (64, 0xffffffff_000501a5, .jlt64K 1 0xffffffff 5),
   (64, 0x00000000_000521ad, .jlt64X 1 2 5),
   (64, 0x00000005_000501b5, .jle64K 1 5 5),
   (64, 0x00000000_000521bd, .jle64X 1 2 5),
   (64, 0x00000000_000501c5, .jslt64K 1 0 5),
   (64, 0x00000000_000521cd, .jslt64X 1 2 5),
   (64, 0xfffffffe_000501d5, .jsle64K 1 0xfffffffe 5),
   (64, 0x00000000_000521dd, .jsle64X 1 2 5)]

theorem test_decode_wordsJump641 : wordsJump641.all readsBothWays = true := by decide

theorem test_decode_wordsJump642 : wordsJump642.all readsBothWays = true := by decide

/-- BPF_JMP32: jumps on 32-bit operands (R220 to R244): words and the instructions they stand for. -/
def wordsJump321 : List (Nat × Nat × Instr) :=
  [(64, 0xffffffff_00050116, .jeq32K 1 0xffffffff 5),
   (64, 0x00000000_0005211e, .jeq32X 1 2 5),
   (64, 0x00000001_00050126, .jgt32K 1 1 5),
   (64, 0x00000000_0005212e, .jgt32X 1 2 5),
   (64, 0xffffffff_00050136, .jge32K 1 0xffffffff 5),
   (64, 0x00000000_0005213e, .jge32X 1 2 5),
   (64, 0x80000000_00050146, .jset32K 1 0x80000000 5),
   (64, 0x00000000_0005214e, .jset32X 1 2 5),
   (64, 0x00000000_00050156, .jne32K 1 0 5),
   (64, 0x00000000_0005215e, .jne32X 1 2 5),
   (64, 0xffffffff_00050166, .jsgt32K 1 0xffffffff 5),
   (64, 0x00000000_0005216e, .jsgt32X 1 2 5),
   (64, 0xffffffff_00050176, .jsge32K 1 0xffffffff 5),
   (64, 0x00000000_0005217e, .jsge32X 1 2 5)]

/-- BPF_JMP32: jumps on 32-bit operands (R220 to R244): words and the instructions they stand for. -/
def wordsJump322 : List (Nat × Nat × Instr) :=
  [(64, 0xffffffff_000501a6, .jlt32K 1 0xffffffff 5),
   (64, 0x00000000_000521ae, .jlt32X 1 2 5),
   (64, 0x00000005_000501b6, .jle32K 1 5 5),
   (64, 0x00000000_000521be, .jle32X 1 2 5),
   (64, 0x00000000_000501c6, .jslt32K 1 0 5),
   (64, 0x00000000_000521ce, .jslt32X 1 2 5),
   (64, 0xfffffffe_000501d6, .jsle32K 1 0xfffffffe 5),
   (64, 0x00000000_000521de, .jsle32X 1 2 5)]

theorem test_decode_wordsJump321 : wordsJump321.all readsBothWays = true := by decide

theorem test_decode_wordsJump322 : wordsJump322.all readsBothWays = true := by decide

/-- BPF_CALL and BPF_EXIT (R246 to R254): words and the instructions they stand for. -/
def wordsCallExit : List (Nat × Nat × Instr) :=
  [(64, 0x00000007_00000085, .callHelper 7),
   (64, 0x00000000_00031085, .callLocal 3 0),
   (64, 0x00000007_00002085, .callRuntime 7),
   (64, 0x00000000_00000095, .exit)]

theorem test_decode_wordsCallExit : wordsCallExit.all readsBothWays = true := by decide

/-- BPF_MEM: regular loads and stores (R260 to R275): words and the instructions they stand for. -/
def wordsLoadStore : List (Nat × Nat × Instr) :=
  [(64, 0x00000000_fff8a171, .ldxB 1 10 0xfff8),
   (64, 0x00000000_fff8a169, .ldxH 1 10 0xfff8),
   (64, 0x00000000_fff8a161, .ldxW 1 10 0xfff8),
   (64, 0x00000000_fff8a179, .ldxDW 1 10 0xfff8),
   (64, 0x000001ff_ffff0a72, .stB 10 0xffff 0x1ff),
   (64, 0xfffffffe_fffe0a6a, .stH 10 0xfffe 0xfffffffe),
   (64, 0x12345678_fffc0a62, .stW 10 0xfffc 0x12345678),
   (64, 0xfffffffe_fff80a7a, .stDW 10 0xfff8 0xfffffffe),
   (64, 0x00000000_ffff2a73, .stxB 10 0xffff 2),
   (64, 0x00000000_fffe2a6b, .stxH 10 0xfffe 2),
   (64, 0x00000000_fffc2a63, .stxW 10 0xfffc 2),
   (64, 0x00000000_fff82a7b, .stxDW 10 0xfff8 2)]

theorem test_decode_wordsLoadStore : wordsLoadStore.all readsBothWays = true := by decide

/-- BPF_ATOMIC: atomic operations (R280 to R305): words and the instructions they stand for. -/
def wordsAtomic1 : List (Nat × Nat × Instr) :=
  [(64, 0x00000000_000021c3, .atomicAdd32 1 0 2),
   (64, 0x00000001_000021c3, .atomicFetchAdd32 1 0 2),
   (64, 0x00000040_000021c3, .atomicOr32 1 0 2),
   (64, 0x00000041_000021c3, .atomicFetchOr32 1 0 2),
   (64, 0x00000050_000021c3, .atomicAnd32 1 0 2),
   (64, 0x00000051_000021c3, .atomicFetchAnd32 1 0 2),
   (64, 0x000000a0_000021c3, .atomicXor32 1 0 2),
   (64, 0x000000a1_000021c3, .atomicFetchXor32 1 0 2),
   (64, 0x000000e1_000021c3, .atomicXchg32 1 0 2),
   (64, 0x000000f1_000021c3, .atomicCmpxchg32 1 0 2),
   (64, 0x00000000_000021db, .atomicAdd64 1 0 2),
   (64, 0x00000001_000021db, .atomicFetchAdd64 1 0 2),
   (64, 0x00000040_000021db, .atomicOr64 1 0 2),
   (64, 0x00000041_000021db, .atomicFetchOr64 1 0 2)]

/-- BPF_ATOMIC: atomic operations (R280 to R305): words and the instructions they stand for. -/
def wordsAtomic2 : List (Nat × Nat × Instr) :=
  [(64, 0x00000050_000021db, .atomicAnd64 1 0 2),
   (64, 0x00000051_000021db, .atomicFetchAnd64 1 0 2),
   (64, 0x000000a0_000021db, .atomicXor64 1 0 2),
   (64, 0x000000a1_000021db, .atomicFetchXor64 1 0 2),
   (64, 0x000000e1_000021db, .atomicXchg64 1 0 2),
   (64, 0x000000f1_000021db, .atomicCmpxchg64 1 0 2)]

theorem test_decode_wordsAtomic1 : wordsAtomic1.all readsBothWays = true := by decide

theorem test_decode_wordsAtomic2 : wordsAtomic2.all readsBothWays = true := by decide

/-- BPF_IMM: 64-bit immediates (R310 to R319): words and the instructions they stand for. -/
def wordsImm64 : List (Nat × Nat × Instr) :=
  [(128, 0x11223344_00000000_55667788_00000118, .ldImm64 1 0x55667788 0x11223344),
   (128, 0x00000000_00000000_00000005_00001118, .ldMapFd 1 5),
   (128, 0x00000010_00000000_00000005_00002118, .ldMapFdValue 1 5 0x10),
   (128, 0x00000000_00000000_00000009_00003118, .ldVarAddr 1 9),
   (128, 0x00000000_00000000_00000003_00004118, .ldCodeAddr 1 3),
   (128, 0x00000000_00000000_00000002_00005118, .ldMapIdx 1 2),
   (128, 0x00000008_00000000_00000002_00006118, .ldMapIdxValue 1 2 8)]

theorem test_decode_wordsImm64 : wordsImm64.all readsBothWays = true := by decide

/-- BPF_ABS and BPF_IND, refused (R322 to R330), and the pseudo slot (R84, R92): words and the instructions they stand for. -/
def wordsLegacy : List (Nat × Nat × Instr) :=
  [(64, 0x00000000_00000020, .ldAbsW 0 0 0 0),
   (64, 0x0000000e_fff82128, .ldAbsH 1 2 0xfff8 0xe),
   (64, 0x0000000e_fff82130, .ldAbsB 1 2 0xfff8 0xe),
   (64, 0x0000000e_fff82138, .ldAbsDW 1 2 0xfff8 0xe),
   (64, 0x0000000e_fff82140, .ldIndW 1 2 0xfff8 0xe),
   (64, 0x0000000e_fff82148, .ldIndH 1 2 0xfff8 0xe),
   (64, 0x0000000e_fff82150, .ldIndB 1 2 0xfff8 0xe),
   (64, 0x00000004_00001058, .ldIndDW 0 1 0 4),
   (64, 0x11223344_00000000, .pseudoSlot 0x11223344)]

theorem test_decode_wordsLegacy : wordsLegacy.all readsBothWays = true := by decide

/-! ### Instructions: vectors of `95_test_vectors.md`, one step each -/

/-- V-A32-2, `ADD32_X r1, r2` (R126). -/
theorem test_V_A32_2 :
    gives (start specConfig [0x00000000_0000210c, 0x95] [(1, 0xffffffff_ffffffff), (2, 0xabcdef01_00000001)] []) [(1, some 0x00000000_00000000), (2, some 0xabcdef01_00000001)] [] 1 = true := by decide

/-- V-A32-4, `SUB32_X r3, r3` (R128). -/
theorem test_V_A32_4 :
    gives (start specConfig [0x00000000_0000331c, 0x95] [(3, 0xdeadbeef_cafef00d)] []) [(3, some 0x00000000_00000000)] [] 1 = true := by decide

/-- V-A32-6, `MUL32_X r1, r2` (R130). -/
theorem test_V_A32_6 :
    gives (start specConfig [0x00000000_0000212c, 0x95] [(1, 0x00000000_ffffffff), (2, 0x00000007_ffffffff)] []) [(1, some 0x00000000_00000001), (2, some 0x00000007_ffffffff)] [] 1 = true := by decide

/-- V-A32-10, `DIV32_X r1, r2` (R132). -/
theorem test_V_A32_10 :
    gives (start specConfig [0x00000000_0000213c, 0x95] [(1, 0x00000000_00000064), (2, 0x00000001_00000000)] []) [(1, some 0x00000000_00000000), (2, some 0x00000001_00000000)] [] 1 = true := by decide

/-- V-A32-12, `DIV32_K r1, -1`, DIVMOD_SIGNED = signed (R131). -/
theorem test_V_A32_12 :
    gives (start { specConfig with divmodSigned := .signed } [0xffffffff_00000134, 0x95] [(1, 0x00000000_80000000)] []) [(1, some 0x00000000_80000000)] [] 1 = true := by decide

/-- V-A32-15, `MOD32_X r1, r2` (R143). -/
theorem test_V_A32_15 :
    gives (start specConfig [0x00000000_0000219c, 0x95] [(1, 0x00000000_00000064), (2, 0x00000000_00000064)] []) [(1, some 0x00000000_00000000), (2, some 0x00000000_00000064)] [] 1 = true := by decide

/-- V-A32-17, `MOD32_K r1, 3`, DIVMOD_SIGNED = signed (R142). -/
theorem test_V_A32_17 :
    gives (start { specConfig with divmodSigned := .signed } [0x00000003_00000194, 0x95] [(1, 0x00000000_fffffff3)] []) [(1, some 0x00000000_ffffffff)] [] 1 = true := by decide

/-- V-A32-21, `XOR32_X r1, r1` (R145). -/
theorem test_V_A32_21 :
    gives (start specConfig [0x00000000_000011ac, 0x95] [(1, 0xffffffff_0000ffff)] []) [(1, some 0x00000000_00000000)] [] 1 = true := by decide

/-- V-A32-23, `OR32_X r1, r2` (R134). -/
theorem test_V_A32_23 :
    gives (start specConfig [0x00000000_0000214c, 0x95] [(1, 0x00000000_0000f0f0), (2, 0xffffffff_00000f0f)] []) [(1, some 0x00000000_0000ffff), (2, some 0xffffffff_00000f0f)] [] 1 = true := by decide

/-- V-A32-25, `AND32_X r1, r2` (R136). -/
theorem test_V_A32_25 :
    gives (start specConfig [0x00000000_0000215c, 0x95] [(1, 0xffffffff_12345678), (2, 0xffffffff_0000ffff)] []) [(1, some 0x00000000_00005678), (2, some 0xffffffff_0000ffff)] [] 1 = true := by decide

/-- V-A32-27, `LSH32_X r1, r2` (R138). -/
theorem test_V_A32_27 :
    gives (start specConfig [0x00000000_0000216c, 0x95] [(1, 0xffffffff_00000003), (2, 0x00000000_00000020)] []) [(1, some 0x00000000_00000003), (2, some 0x00000000_00000020)] [] 1 = true := by decide

/-- V-A32-28, `LSH32_X r1, r2`, SHIFT_OVERWIDTH = refuse (R138). -/
theorem test_V_A32_28 :
    faults (start { specConfig with shiftOverwidth := .refuse } [0x00000000_0000216c, 0x95] [(1, 0xffffffff_00000003), (2, 0x00000000_00000020)] []) (.refusedShift 0) = true := by decide

/-- V-A32-31, `RSH32_X r1, r2` (R140). -/
theorem test_V_A32_31 :
    gives (start specConfig [0x00000000_0000217c, 0x95] [(1, 0xffffffff_80000000), (2, 0x00000000_00000021)] []) [(1, some 0x00000000_40000000), (2, some 0x00000000_00000021)] [] 1 = true := by decide

/-- V-A32-34, `ARSH32_X r1, r2` (R149). -/
theorem test_V_A32_34 :
    gives (start specConfig [0x00000000_000021cc, 0x95] [(1, 0x00000000_80000000), (2, 0x00000000_0000003f)] []) [(1, some 0x00000000_ffffffff), (2, some 0x00000000_0000003f)] [] 1 = true := by decide

/-- V-A32-35, `NEG32 r1` (R141). -/
theorem test_V_A32_35 :
    gives (start specConfig [0x00000000_00000184, 0x95] [(1, 0xffffffff_00000001)] []) [(1, some 0x00000000_ffffffff)] [] 1 = true := by decide

/-- V-A32-39, `MOV32_X r1, r2` (R147). -/
theorem test_V_A32_39 :
    gives (start specConfig [0x00000000_000021bc, 0x95] [(2, 0x12345678_9abcdef0)] []) [(1, some 0x00000000_9abcdef0), (2, some 0x12345678_9abcdef0)] [] 1 = true := by decide

/-- V-A64-2, `ADD64_X r1, r2` (R156). -/
theorem test_V_A64_2 :
    gives (start specConfig [0x00000000_0000210f, 0x95] [(1, 0xffffffff_ffffffff), (2, 0x00000000_00000001)] []) [(1, some 0x00000000_00000000), (2, some 0x00000000_00000001)] [] 1 = true := by decide

/-- V-A64-4, `SUB64_X r1, r2` (R158). -/
theorem test_V_A64_4 :
    gives (start specConfig [0x00000000_0000211f, 0x95] [(1, 0x00000000_00000005), (2, 0x00000000_00000007)] []) [(1, some 0xffffffff_fffffffe), (2, some 0x00000000_00000007)] [] 1 = true := by decide

/-- V-A64-6, `MUL64_X r1, r2` (R160). -/
theorem test_V_A64_6 :
    gives (start specConfig [0x00000000_0000212f, 0x95] [(1, 0x00000001_00000001), (2, 0x00000001_00000001)] []) [(1, some 0x00000002_00000001), (2, some 0x00000001_00000001)] [] 1 = true := by decide

/-- V-A64-9, `DIV64_X r1, r2` (R162). -/
theorem test_V_A64_9 :
    gives (start specConfig [0x00000000_0000213f, 0x95] [(1, 0x12345678_9abcdef0), (2, 0x00000000_00000000)] []) [(1, some 0x00000000_00000000), (2, some 0x00000000_00000000)] [] 1 = true := by decide

/-- V-A64-10, `DIV64_K r1, -1`, DIVMOD_SIGNED = signed (R161). -/
theorem test_V_A64_10 :
    gives (start { specConfig with divmodSigned := .signed } [0xffffffff_00000137, 0x95] [(1, 0xffffffff_fffffffe)] []) [(1, some 0x00000000_00000002)] [] 1 = true := by decide

/-- V-A64-14, `MOD64_X r1, r2` (R173). -/
theorem test_V_A64_14 :
    gives (start specConfig [0x00000000_0000219f, 0x95] [(1, 0x00000000_00000064), (2, 0x00000000_00000007)] []) [(1, some 0x00000000_00000002), (2, some 0x00000000_00000007)] [] 1 = true := by decide

/-- V-A64-17, `MOD64_K r1, 3`, DIVMOD_SIGNED = signed (R172). -/
theorem test_V_A64_17 :
    gives (start { specConfig with divmodSigned := .signed } [0x00000003_00000197, 0x95] [(1, 0xffffffff_fffffff3)] []) [(1, some 0xffffffff_ffffffff)] [] 1 = true := by decide

/-- V-A64-21, `XOR64_X r1, r2` (R175). -/
theorem test_V_A64_21 :
    gives (start specConfig [0x00000000_000021af, 0x95] [(1, 0xff00ff00_ff00ff00), (2, 0x0ff00ff0_0ff00ff0)] []) [(1, some 0xf0f0f0f0_f0f0f0f0), (2, some 0x0ff00ff0_0ff00ff0)] [] 1 = true := by decide

/-- V-A64-23, `OR64_X r1, r2` (R164). -/
theorem test_V_A64_23 :
    gives (start specConfig [0x00000000_0000214f, 0x95] [(1, 0x0000f0f0_00000000), (2, 0x00000f0f_00000001)] []) [(1, some 0x0000ffff_00000001), (2, some 0x00000f0f_00000001)] [] 1 = true := by decide

/-- V-A64-26, `AND64_X r1, r2` (R166). -/
theorem test_V_A64_26 :
    gives (start specConfig [0x00000000_0000215f, 0x95] [(1, 0x12345678_9abcdeff), (2, 0xffff0000_0000ffff)] []) [(1, some 0x12340000_0000deff), (2, some 0xffff0000_0000ffff)] [] 1 = true := by decide

/-- V-A64-28, `LSH64_X r1, r2` (R168). -/
theorem test_V_A64_28 :
    gives (start specConfig [0x00000000_0000216f, 0x95] [(1, 0x00000000_00000003), (2, 0x00000000_00000040)] []) [(1, some 0x00000000_00000003), (2, some 0x00000000_00000040)] [] 1 = true := by decide

/-- V-A64-32, `RSH64_X r1, r2` (R170). -/
theorem test_V_A64_32 :
    gives (start specConfig [0x00000000_0000217f, 0x95] [(1, 0x80000000_00000000), (2, 0x00000000_0000003f)] []) [(1, some 0x00000000_00000001), (2, some 0x00000000_0000003f)] [] 1 = true := by decide

/-- V-A64-34, `ARSH64_X r1, r2` (R179). -/
theorem test_V_A64_34 :
    gives (start specConfig [0x00000000_000021cf, 0x95] [(1, 0x80000000_00000000), (2, 0x00000000_0000003f)] []) [(1, some 0xffffffff_ffffffff), (2, some 0x00000000_0000003f)] [] 1 = true := by decide

/-- V-A64-36, `NEG64 r1` (R171). -/
theorem test_V_A64_36 :
    gives (start specConfig [0x00000000_00000187, 0x95] [(1, 0x00000000_00000001)] []) [(1, some 0xffffffff_ffffffff)] [] 1 = true := by decide

/-- V-A64-40, `MOV64_X r1, r10` (R177). -/
theorem test_V_A64_40 :
    gives (start specConfig [0x00000000_0000a1bf, 0x95] [] []) [(1, some 0x00000000_00010000)] [] 1 = true := by decide

/-- V-BS-1, `LE16 r1`, HOST_ENDIAN = little (R183). -/
theorem test_V_BS_1 :
    gives (start specConfig [0x00000010_000001d4, 0x95] [(1, 0x11223344_55667788)] []) [(1, some 0x00000000_00007788)] [] 1 = true := by decide

/-- V-BS-2, `LE32 r1`, HOST_ENDIAN = little (R184). -/
theorem test_V_BS_2 :
    gives (start specConfig [0x00000020_000001d4, 0x95] [(1, 0x11223344_55667788)] []) [(1, some 0x00000000_55667788)] [] 1 = true := by decide

/-- V-BS-3, `LE64 r1`, HOST_ENDIAN = little (R185). -/
theorem test_V_BS_3 :
    gives (start specConfig [0x00000040_000001d4, 0x95] [(1, 0x11223344_55667788)] []) [(1, some 0x11223344_55667788)] [] 1 = true := by decide

/-- V-BS-4, `BE16 r1`, HOST_ENDIAN = little (R186). -/
theorem test_V_BS_4 :
    gives (start specConfig [0x00000010_000001dc, 0x95] [(1, 0x11223344_55667788)] []) [(1, some 0x00000000_00008877)] [] 1 = true := by decide

/-- V-BS-5, `BE32 r1`, HOST_ENDIAN = little (R187). -/
theorem test_V_BS_5 :
    gives (start specConfig [0x00000020_000001dc, 0x95] [(1, 0x11223344_55667788)] []) [(1, some 0x00000000_88776655)] [] 1 = true := by decide

/-- V-BS-6, `BE64 r1`, HOST_ENDIAN = little (R188). -/
theorem test_V_BS_6 :
    gives (start specConfig [0x00000040_000001dc, 0x95] [(1, 0x11223344_55667788)] []) [(1, some 0x88776655_44332211)] [] 1 = true := by decide

/-- V-BS-7, `LE16 r1`, HOST_ENDIAN = big (R183). -/
theorem test_V_BS_7 :
    gives (start { specConfig with hostEndian := .big } [0x00000010_000001d4, 0x95] [(1, 0x11223344_55667788)] []) [(1, some 0x00000000_00008877)] [] 1 = true := by decide

/-- V-BS-12, `BE64 r1`, HOST_ENDIAN = big (R188). -/
theorem test_V_BS_12 :
    gives (start { specConfig with hostEndian := .big } [0x00000040_000001dc, 0x95] [(1, 0x11223344_55667788)] []) [(1, some 0x11223344_55667788)] [] 1 = true := by decide

/-- V-J64-1, `JA +5` (R194). -/
theorem test_V_J64_1 :
    gives (start specConfig [0x00000000_00050005, 0x95] [] []) [] [] 6 = true := by decide

/-- V-J64-6, `JEQ64_X r1, r2, +5` (R196). -/
theorem test_V_J64_6 :
    gives (start specConfig [0x00000000_0005211d, 0x95] [(1, 0x00000001_00000000), (2, 0x00000002_00000000)] []) [(1, some 0x00000001_00000000), (2, some 0x00000002_00000000)] [] 1 = true := by decide

/-- V-J64-9, `JGT64_X r1, r2, +5` (R198). -/
theorem test_V_J64_9 :
    gives (start specConfig [0x00000000_0005212d, 0x95] [(1, 0x00000000_00000002), (2, 0x00000000_00000001)] []) [(1, some 0x00000000_00000002), (2, some 0x00000000_00000001)] [] 6 = true := by decide

/-- V-J64-11, `JGE64_X r1, r2, +5` (R200). -/
theorem test_V_J64_11 :
    gives (start specConfig [0x00000000_0005213d, 0x95] [(1, 0x00000000_00000001), (2, 0x00000000_00000002)] []) [(1, some 0x00000000_00000001), (2, some 0x00000000_00000002)] [] 1 = true := by decide

/-- V-J64-14, `JSET64_X r1, r2, +5` (R202). -/
theorem test_V_J64_14 :
    gives (start specConfig [0x00000000_0005214d, 0x95] [(1, 0x00000001_00000000), (2, 0x00000001_00000000)] []) [(1, some 0x00000001_00000000), (2, some 0x00000001_00000000)] [] 6 = true := by decide

/-- V-J64-16, `JNE64_X r1, r1, +5` (R204). -/
theorem test_V_J64_16 :
    gives (start specConfig [0x00000000_0005115d, 0x95] [(1, 0x00000000_00000007)] []) [(1, some 0x00000000_00000007)] [] 1 = true := by decide

/-- V-J64-18, `JSGT64_X r1, r2, +5` (R206). -/
theorem test_V_J64_18 :
    gives (start specConfig [0x00000000_0005216d, 0x95] [(1, 0x80000000_00000000), (2, 0x00000000_00000001)] []) [(1, some 0x80000000_00000000), (2, some 0x00000000_00000001)] [] 1 = true := by decide

/-- V-J64-20, `JSGE64_X r1, r2, +5` (R208). -/
theorem test_V_J64_20 :
    gives (start specConfig [0x00000000_0005217d, 0x95] [(1, 0xffffffff_fffffffe), (2, 0xffffffff_ffffffff)] []) [(1, some 0xffffffff_fffffffe), (2, some 0xffffffff_ffffffff)] [] 1 = true := by decide

/-- V-J64-22, `JLT64_X r1, r2, +5` (R210). -/
theorem test_V_J64_22 :
    gives (start specConfig [0x00000000_000521ad, 0x95] [(1, 0xffffffff_ffffffff), (2, 0x00000000_00000000)] []) [(1, some 0xffffffff_ffffffff), (2, some 0x00000000_00000000)] [] 1 = true := by decide

/-- V-J64-24, `JLE64_X r1, r2, +5` (R212). -/
theorem test_V_J64_24 :
    gives (start specConfig [0x00000000_000521bd, 0x95] [(1, 0x00000000_00000006), (2, 0x00000000_00000005)] []) [(1, some 0x00000000_00000006), (2, some 0x00000000_00000005)] [] 1 = true := by decide

/-- V-J64-26, `JSLT64_X r1, r2, +5` (R214). -/
theorem test_V_J64_26 :
    gives (start specConfig [0x00000000_000521cd, 0x95] [(1, 0x00000000_00000001), (2, 0xffffffff_ffffffff)] []) [(1, some 0x00000000_00000001), (2, some 0xffffffff_ffffffff)] [] 1 = true := by decide

/-- V-J64-28, `JSLE64_X r1, r2, +5` (R216). -/
theorem test_V_J64_28 :
    gives (start specConfig [0x00000000_000521dd, 0x95] [(1, 0x80000000_00000000), (2, 0x80000000_00000000)] []) [(1, some 0x80000000_00000000), (2, some 0x80000000_00000000)] [] 6 = true := by decide

/-- V-J32-2, `JEQ32_X r1, r2, +5` (R224). -/
theorem test_V_J32_2 :
    gives (start specConfig [0x00000000_0005211e, 0x95] [(1, 0x00000001_00000000), (2, 0x00000002_00000000)] []) [(1, some 0x00000001_00000000), (2, some 0x00000002_00000000)] [] 6 = true := by decide

/-- V-J32-4, `JGT32_X r1, r2, +5` (R226). -/
theorem test_V_J32_4 :
    gives (start specConfig [0x00000000_0005212e, 0x95] [(1, 0x00000000_80000000), (2, 0xffffffff_7fffffff)] []) [(1, some 0x00000000_80000000), (2, some 0xffffffff_7fffffff)] [] 6 = true := by decide

/-- V-J32-6, `JGE32_X r1, r2, +5` (R228). -/
theorem test_V_J32_6 :
    gives (start specConfig [0x00000000_0005213e, 0x95] [(1, 0x00000000_00000001), (2, 0x00000000_00000002)] []) [(1, some 0x00000000_00000001), (2, some 0x00000000_00000002)] [] 1 = true := by decide

/-- V-J32-8, `JSET32_X r1, r2, +5` (R230). -/
theorem test_V_J32_8 :
    gives (start specConfig [0x00000000_0005214e, 0x95] [(1, 0x00000000_00000010), (2, 0xffffffff_00000030)] []) [(1, some 0x00000000_00000010), (2, some 0xffffffff_00000030)] [] 6 = true := by decide

/-- V-J32-10, `JNE32_X r1, r2, +5` (R232). -/
theorem test_V_J32_10 :
    gives (start specConfig [0x00000000_0005215e, 0x95] [(1, 0x00000000_00000001), (2, 0x00000000_00000002)] []) [(1, some 0x00000000_00000001), (2, some 0x00000000_00000002)] [] 6 = true := by decide

/-- V-J32-12, `JSGT32_X r1, r2, +5` (R234). -/
theorem test_V_J32_12 :
    gives (start specConfig [0x00000000_0005216e, 0x95] [(1, 0x00000000_80000000), (2, 0x00000000_00000001)] []) [(1, some 0x00000000_80000000), (2, some 0x00000000_00000001)] [] 1 = true := by decide

/-- V-J32-14, `JSGE32_X r1, r2, +5` (R236). -/
theorem test_V_J32_14 :
    gives (start specConfig [0x00000000_0005217e, 0x95] [(1, 0x00000000_fffffffe), (2, 0x00000000_ffffffff)] []) [(1, some 0x00000000_fffffffe), (2, some 0x00000000_ffffffff)] [] 1 = true := by decide

/-- V-J32-16, `JLT32_X r1, r2, +5` (R238). -/
theorem test_V_J32_16 :
    gives (start specConfig [0x00000000_000521ae, 0x95] [(1, 0x00000000_ffffffff), (2, 0x00000001_00000000)] []) [(1, some 0x00000000_ffffffff), (2, some 0x00000001_00000000)] [] 1 = true := by decide

/-- V-J32-18, `JLE32_X r1, r2, +5` (R240). -/
theorem test_V_J32_18 :
    gives (start specConfig [0x00000000_000521be, 0x95] [(1, 0x00000000_00000006), (2, 0x00000000_00000005)] []) [(1, some 0x00000000_00000006), (2, some 0x00000000_00000005)] [] 1 = true := by decide

/-- V-J32-20, `JSLT32_X r1, r2, +5` (R242). -/
theorem test_V_J32_20 :
    gives (start specConfig [0x00000000_000521ce, 0x95] [(1, 0x80000000_00000001), (2, 0x00000000_ffffffff)] []) [(1, some 0x80000000_00000001), (2, some 0x00000000_ffffffff)] [] 1 = true := by decide

/-- V-J32-22, `JSLE32_X r1, r2, +5` (R244). -/
theorem test_V_J32_22 :
    gives (start specConfig [0x00000000_000521de, 0x95] [(1, 0x00000000_80000000), (2, 0x7fffffff_80000000)] []) [(1, some 0x00000000_80000000), (2, some 0x7fffffff_80000000)] [] 6 = true := by decide

/-- V-LS-1, `LDX_B r1, [r10-8]`, HOST_ENDIAN = little (R264). -/
theorem test_V_LS_1 :
    gives (start specConfig [0x00000000_fff8a171, 0x95] [] [(0xfff8, [0x88, 0x77, 0x66, 0x55, 0x44, 0x33, 0x22, 0x11])]) [(1, some 0x00000000_00000088)] [] 1 = true := by decide

/-- V-LS-2, `LDX_H r1, [r10-8]`, HOST_ENDIAN = little (R265). -/
theorem test_V_LS_2 :
    gives (start specConfig [0x00000000_fff8a169, 0x95] [] [(0xfff8, [0x88, 0x77, 0x66, 0x55, 0x44, 0x33, 0x22, 0x11])]) [(1, some 0x00000000_00007788)] [] 1 = true := by decide

/-- V-LS-3, `LDX_W r1, [r10-8]`, HOST_ENDIAN = little (R266). -/
theorem test_V_LS_3 :
    gives (start specConfig [0x00000000_fff8a161, 0x95] [] [(0xfff8, [0x88, 0x77, 0x66, 0x55, 0x44, 0x33, 0x22, 0x11])]) [(1, some 0x00000000_55667788)] [] 1 = true := by decide

/-- V-LS-4, `LDX_DW r1, [r10-8]`, HOST_ENDIAN = little (R267). -/
theorem test_V_LS_4 :
    gives (start specConfig [0x00000000_fff8a179, 0x95] [] [(0xfff8, [0x88, 0x77, 0x66, 0x55, 0x44, 0x33, 0x22, 0x11])]) [(1, some 0x11223344_55667788)] [] 1 = true := by decide

/-- V-LS-9, `ST_B [r10-1], 0x1ff`, HOST_ENDIAN = little (R268). -/
theorem test_V_LS_9 :
    gives (start specConfig [0x000001ff_ffff0a72, 0x95] [] []) [] [(0xffff, [0xff])] 1 = true := by decide

/-- V-LS-10, `ST_H [r10-2], -2`, HOST_ENDIAN = little (R269). -/
theorem test_V_LS_10 :
    gives (start specConfig [0xfffffffe_fffe0a6a, 0x95] [] []) [] [(0xfffe, [0xfe, 0xff])] 1 = true := by decide

/-- V-LS-11, `ST_W [r10-4], 0x12345678`, HOST_ENDIAN = little (R270). -/
theorem test_V_LS_11 :
    gives (start specConfig [0x12345678_fffc0a62, 0x95] [] []) [] [(0xfffc, [0x78, 0x56, 0x34, 0x12])] 1 = true := by decide

/-- V-LS-12, `ST_DW [r10-8], -2`, HOST_ENDIAN = little (R271). -/
theorem test_V_LS_12 :
    gives (start specConfig [0xfffffffe_fff80a7a, 0x95] [] []) [] [(0xfff8, [0xfe, 0xff, 0xff, 0xff, 0xff, 0xff, 0xff, 0xff])] 1 = true := by decide

/-- V-LS-19, `STX_B [r10-1], r2`, HOST_ENDIAN = little (R272). -/
theorem test_V_LS_19 :
    gives (start specConfig [0x00000000_ffff2a73, 0x95] [(2, 0x11223344_55667788)] []) [] [(0xffff, [0x88])] 1 = true := by decide

/-- V-LS-20, `STX_H [r10-2], r2`, HOST_ENDIAN = little (R273). -/
theorem test_V_LS_20 :
    gives (start specConfig [0x00000000_fffe2a6b, 0x95] [(2, 0x11223344_55667788)] []) [] [(0xfffe, [0x88, 0x77])] 1 = true := by decide

/-- V-LS-21, `STX_W [r10-4], r2`, HOST_ENDIAN = little (R274). -/
theorem test_V_LS_21 :
    gives (start specConfig [0x00000000_fffc2a63, 0x95] [(2, 0x11223344_55667788)] []) [] [(0xfffc, [0x88, 0x77, 0x66, 0x55])] 1 = true := by decide

/-- V-LS-22, `STX_DW [r10-8], r2`, HOST_ENDIAN = little (R275). -/
theorem test_V_LS_22 :
    gives (start specConfig [0x00000000_fff82a7b, 0x95] [(2, 0x11223344_55667788)] []) [] [(0xfff8, [0x88, 0x77, 0x66, 0x55, 0x44, 0x33, 0x22, 0x11])] 1 = true := by decide

/-- V-LS-26, `STX_DW [r10-8], r2`, HOST_ENDIAN = big (R275). -/
theorem test_V_LS_26 :
    gives (start { specConfig with hostEndian := .big } [0x00000000_fff82a7b, 0x95] [(2, 0x11223344_55667788)] []) [] [(0xfff8, [0x11, 0x22, 0x33, 0x44, 0x55, 0x66, 0x77, 0x88])] 1 = true := by decide

/-- V-AT-1, `ATOMIC_ADD32 [r1+0], r2` (R286). -/
theorem test_V_AT_1 :
    gives (start specConfig [0x00000000_000021c3, 0x95] [(1, 0x00000000_0000fff8), (2, 0x99999999_00000025)] [(0xfff8, [0xf0, 0xff, 0xff, 0xff, 0xaa, 0xbb, 0xcc, 0xdd])]) [(1, some 0x00000000_0000fff8), (2, some 0x99999999_00000025)] [(0xfff8, [0x15, 0x00, 0x00, 0x00, 0xaa, 0xbb, 0xcc, 0xdd])] 1 = true := by decide

/-- V-AT-2, `ATOMIC_FETCH_ADD32 [r1+0], r2` (R287). -/
theorem test_V_AT_2 :
    gives (start specConfig [0x00000001_000021c3, 0x95] [(1, 0x00000000_0000fff8), (2, 0x99999999_00000025)] [(0xfff8, [0xf0, 0xff, 0xff, 0xff, 0xaa, 0xbb, 0xcc, 0xdd])]) [(1, some 0x00000000_0000fff8), (2, some 0x00000000_fffffff0)] [(0xfff8, [0x15, 0x00, 0x00, 0x00, 0xaa, 0xbb, 0xcc, 0xdd])] 1 = true := by decide

/-- V-AT-3, `ATOMIC_OR32 [r1+0], r2` (R288). -/
theorem test_V_AT_3 :
    gives (start specConfig [0x00000040_000021c3, 0x95] [(1, 0x00000000_0000fff8), (2, 0x00000000_0000000f)] [(0xfff8, [0xf0, 0xff, 0xff, 0xff, 0xaa, 0xbb, 0xcc, 0xdd])]) [(1, some 0x00000000_0000fff8), (2, some 0x00000000_0000000f)] [(0xfff8, [0xff, 0xff, 0xff, 0xff, 0xaa, 0xbb, 0xcc, 0xdd])] 1 = true := by decide

/-- V-AT-4, `ATOMIC_FETCH_OR32 [r1+0], r2` (R289). -/
theorem test_V_AT_4 :
    gives (start specConfig [0x00000041_000021c3, 0x95] [(1, 0x00000000_0000fff8), (2, 0xffffffff_0000000f)] [(0xfff8, [0xf0, 0xff, 0xff, 0xff, 0xaa, 0xbb, 0xcc, 0xdd])]) [(1, some 0x00000000_0000fff8), (2, some 0x00000000_fffffff0)] [(0xfff8, [0xff, 0xff, 0xff, 0xff, 0xaa, 0xbb, 0xcc, 0xdd])] 1 = true := by decide

/-- V-AT-5, `ATOMIC_AND32 [r1+0], r2` (R290). -/
theorem test_V_AT_5 :
    gives (start specConfig [0x00000050_000021c3, 0x95] [(1, 0x00000000_0000fff8), (2, 0x00000000_0000ffff)] [(0xfff8, [0xf0, 0xff, 0xff, 0xff, 0xaa, 0xbb, 0xcc, 0xdd])]) [(1, some 0x00000000_0000fff8), (2, some 0x00000000_0000ffff)] [(0xfff8, [0xf0, 0xff, 0x00, 0x00, 0xaa, 0xbb, 0xcc, 0xdd])] 1 = true := by decide

/-- V-AT-6, `ATOMIC_FETCH_AND32 [r1+0], r2` (R291). -/
theorem test_V_AT_6 :
    gives (start specConfig [0x00000051_000021c3, 0x95] [(1, 0x00000000_0000fff8), (2, 0x00000000_0000ffff)] [(0xfff8, [0xf0, 0xff, 0xff, 0xff, 0xaa, 0xbb, 0xcc, 0xdd])]) [(1, some 0x00000000_0000fff8), (2, some 0x00000000_fffffff0)] [(0xfff8, [0xf0, 0xff, 0x00, 0x00, 0xaa, 0xbb, 0xcc, 0xdd])] 1 = true := by decide

/-- V-AT-7, `ATOMIC_XOR32 [r1+0], r2` (R292). -/
theorem test_V_AT_7 :
    gives (start specConfig [0x000000a0_000021c3, 0x95] [(1, 0x00000000_0000fff8), (2, 0x00000000_ffffffff)] [(0xfff8, [0xf0, 0xff, 0xff, 0xff, 0xaa, 0xbb, 0xcc, 0xdd])]) [(1, some 0x00000000_0000fff8), (2, some 0x00000000_ffffffff)] [(0xfff8, [0x0f, 0x00, 0x00, 0x00, 0xaa, 0xbb, 0xcc, 0xdd])] 1 = true := by decide

/-- V-AT-8, `ATOMIC_FETCH_XOR32 [r1+0], r2` (R293). -/
theorem test_V_AT_8 :
    gives (start specConfig [0x000000a1_000021c3, 0x95] [(1, 0x00000000_0000fff8), (2, 0x00000000_ffffffff)] [(0xfff8, [0xf0, 0xff, 0xff, 0xff, 0xaa, 0xbb, 0xcc, 0xdd])]) [(1, some 0x00000000_0000fff8), (2, some 0x00000000_fffffff0)] [(0xfff8, [0x0f, 0x00, 0x00, 0x00, 0xaa, 0xbb, 0xcc, 0xdd])] 1 = true := by decide

/-- V-AT-9, `ATOMIC_XCHG32 [r1+0], r2` (R294). -/
theorem test_V_AT_9 :
    gives (start specConfig [0x000000e1_000021c3, 0x95] [(1, 0x00000000_0000fff8), (2, 0x11111111_22222222)] [(0xfff8, [0xf0, 0xff, 0xff, 0xff, 0xaa, 0xbb, 0xcc, 0xdd])]) [(1, some 0x00000000_0000fff8), (2, some 0x00000000_fffffff0)] [(0xfff8, [0x22, 0x22, 0x22, 0x22, 0xaa, 0xbb, 0xcc, 0xdd])] 1 = true := by decide

/-- V-AT-10, `ATOMIC_CMPXCHG32 [r1+0], r2` (R295). -/
theorem test_V_AT_10 :
    gives (start specConfig [0x000000f1_000021c3, 0x95] [(0, 0x77777777_fffffff0), (1, 0x00000000_0000fff8), (2, 0x11111111_22222222)] [(0xfff8, [0xf0, 0xff, 0xff, 0xff, 0xaa, 0xbb, 0xcc, 0xdd])]) [(0, some 0x00000000_fffffff0), (1, some 0x00000000_0000fff8), (2, some 0x11111111_22222222)] [(0xfff8, [0x22, 0x22, 0x22, 0x22, 0xaa, 0xbb, 0xcc, 0xdd])] 1 = true := by decide

/-- V-AT-12, `ATOMIC_ADD64 [r1+0], r2` (R296). -/
theorem test_V_AT_12 :
    gives (start specConfig [0x00000000_000021db, 0x95] [(1, 0x00000000_0000fff8), (2, 0x00000000_00000025)] [(0xfff8, [0xf0, 0xff, 0xff, 0xff, 0xff, 0xff, 0xff, 0xff])]) [(1, some 0x00000000_0000fff8), (2, some 0x00000000_00000025)] [(0xfff8, [0x15, 0x00, 0x00, 0x00, 0x00, 0x00, 0x00, 0x00])] 1 = true := by decide

/-- V-AT-13, `ATOMIC_FETCH_ADD64 [r1+0], r2` (R297). -/
theorem test_V_AT_13 :
    gives (start specConfig [0x00000001_000021db, 0x95] [(1, 0x00000000_0000fff8), (2, 0x00000000_00000025)] [(0xfff8, [0xf0, 0xff, 0xff, 0xff, 0xff, 0xff, 0xff, 0xff])]) [(1, some 0x00000000_0000fff8), (2, some 0xffffffff_fffffff0)] [(0xfff8, [0x15, 0x00, 0x00, 0x00, 0x00, 0x00, 0x00, 0x00])] 1 = true := by decide

/-- V-AT-14, `ATOMIC_OR64 [r1+0], r2` (R298). -/
theorem test_V_AT_14 :
    gives (start specConfig [0x00000040_000021db, 0x95] [(1, 0x00000000_0000fff8), (2, 0x00000000_0000000f)] [(0xfff8, [0xf0, 0xff, 0xff, 0xff, 0xff, 0xff, 0xff, 0xff])]) [(1, some 0x00000000_0000fff8), (2, some 0x00000000_0000000f)] [(0xfff8, [0xff, 0xff, 0xff, 0xff, 0xff, 0xff, 0xff, 0xff])] 1 = true := by decide

/-- V-AT-15, `ATOMIC_FETCH_OR64 [r1+0], r2` (R299). -/
theorem test_V_AT_15 :
    gives (start specConfig [0x00000041_000021db, 0x95] [(1, 0x00000000_0000fff8), (2, 0x00000000_0000000f)] [(0xfff8, [0xf0, 0xff, 0xff, 0xff, 0xff, 0xff, 0xff, 0xff])]) [(1, some 0x00000000_0000fff8), (2, some 0xffffffff_fffffff0)] [(0xfff8, [0xff, 0xff, 0xff, 0xff, 0xff, 0xff, 0xff, 0xff])] 1 = true := by decide

/-- V-AT-16, `ATOMIC_AND64 [r1+0], r2` (R300). -/
theorem test_V_AT_16 :
    gives (start specConfig [0x00000050_000021db, 0x95] [(1, 0x00000000_0000fff8), (2, 0x0000ffff_0000ffff)] [(0xfff8, [0xf0, 0xff, 0xff, 0xff, 0xff, 0xff, 0xff, 0xff])]) [(1, some 0x00000000_0000fff8), (2, some 0x0000ffff_0000ffff)] [(0xfff8, [0xf0, 0xff, 0x00, 0x00, 0xff, 0xff, 0x00, 0x00])] 1 = true := by decide

/-- V-AT-17, `ATOMIC_FETCH_AND64 [r1+0], r2` (R301). -/
theorem test_V_AT_17 :
    gives (start specConfig [0x00000051_000021db, 0x95] [(1, 0x00000000_0000fff8), (2, 0x0000ffff_0000ffff)] [(0xfff8, [0xf0, 0xff, 0xff, 0xff, 0xff, 0xff, 0xff, 0xff])]) [(1, some 0x00000000_0000fff8), (2, some 0xffffffff_fffffff0)] [(0xfff8, [0xf0, 0xff, 0x00, 0x00, 0xff, 0xff, 0x00, 0x00])] 1 = true := by decide

/-- V-AT-18, `ATOMIC_XOR64 [r1+0], r2` (R302). -/
theorem test_V_AT_18 :
    gives (start specConfig [0x000000a0_000021db, 0x95] [(1, 0x00000000_0000fff8), (2, 0xffffffff_ffffffff)] [(0xfff8, [0xf0, 0xff, 0xff, 0xff, 0xff, 0xff, 0xff, 0xff])]) [(1, some 0x00000000_0000fff8), (2, some 0xffffffff_ffffffff)] [(0xfff8, [0x0f, 0x00, 0x00, 0x00, 0x00, 0x00, 0x00, 0x00])] 1 = true := by decide

/-- V-AT-19, `ATOMIC_FETCH_XOR64 [r1+0], r2` (R303). -/
theorem test_V_AT_19 :
    gives (start specConfig [0x000000a1_000021db, 0x95] [(1, 0x00000000_0000fff8), (2, 0xffffffff_ffffffff)] [(0xfff8, [0xf0, 0xff, 0xff, 0xff, 0xff, 0xff, 0xff, 0xff])]) [(1, some 0x00000000_0000fff8), (2, some 0xffffffff_fffffff0)] [(0xfff8, [0x0f, 0x00, 0x00, 0x00, 0x00, 0x00, 0x00, 0x00])] 1 = true := by decide

/-- V-AT-20, `ATOMIC_XCHG64 [r1+0], r2` (R304). -/
theorem test_V_AT_20 :
    gives (start specConfig [0x000000e1_000021db, 0x95] [(1, 0x00000000_0000fff8), (2, 0x11111111_22222222)] [(0xfff8, [0xf0, 0xff, 0xff, 0xff, 0xff, 0xff, 0xff, 0xff])]) [(1, some 0x00000000_0000fff8), (2, some 0xffffffff_fffffff0)] [(0xfff8, [0x22, 0x22, 0x22, 0x22, 0x11, 0x11, 0x11, 0x11])] 1 = true := by decide

/-- V-AT-21, `ATOMIC_CMPXCHG64 [r1+0], r2` (R305). -/
theorem test_V_AT_21 :
    gives (start specConfig [0x000000f1_000021db, 0x95] [(0, 0xffffffff_fffffff0), (1, 0x00000000_0000fff8), (2, 0x11111111_22222222)] [(0xfff8, [0xf0, 0xff, 0xff, 0xff, 0xff, 0xff, 0xff, 0xff])]) [(0, some 0xffffffff_fffffff0), (1, some 0x00000000_0000fff8), (2, some 0x11111111_22222222)] [(0xfff8, [0x22, 0x22, 0x22, 0x22, 0x11, 0x11, 0x11, 0x11])] 1 = true := by decide

/-- V-LD-1, `LD_IMM64 r1, imm=0x55667788, next_imm=0x11223344` (R313). -/
theorem test_V_LD_1 :
    gives (start specConfig [0x55667788_00000118, 0x11223344_00000000, 0x95] [] []) [(1, some 0x11223344_55667788)] [] 2 = true := by decide

/-- V-LD-4, `LD_MAP_FD r1, imm=0x5, next_imm=0x0` (R314). -/
theorem test_V_LD_4 :
    faults (start specConfig [0x00000005_00001118, 0x00000000_00000000, 0x95] [] []) (.illegalInstruction 0 0x00000005_00001118 .unsupportedOptional) = true := by decide

/-- V-LD-5, `LD_MAP_FD r1, imm=0x5, next_imm=0x0`, MAPS_SUPPORTED = true, VARS_SUPPORTED = true, example platform (R314). -/
theorem test_V_LD_5 :
    gives (start platformConfig [0x00000005_00001118, 0x00000000_00000000, 0x95] [] []) [(1, some 0x00000000_70000000)] [] 2 = true := by decide

/-- V-LD-6, `LD_MAP_FD_VALUE r1, imm=0x5, next_imm=0x10`, MAPS_SUPPORTED = true, VARS_SUPPORTED = true, example platform (R315). -/
theorem test_V_LD_6 :
    gives (start platformConfig [0x00000005_00002118, 0x00000010_00000000, 0x95] [] []) [(1, some 0x00000000_00020010)] [] 2 = true := by decide

/-- V-LD-8, `LD_VAR_ADDR r1, imm=0x9, next_imm=0x0`, MAPS_SUPPORTED = true, VARS_SUPPORTED = true, example platform (R316). -/
theorem test_V_LD_8 :
    gives (start platformConfig [0x00000009_00003118, 0x00000000_00000000, 0x95] [] []) [(1, some 0x00000000_00040000)] [] 2 = true := by decide

/-- V-LD-9, `LD_MAP_IDX r1, imm=0x2, next_imm=0x0`, MAPS_SUPPORTED = true, VARS_SUPPORTED = true, example platform (R318). -/
theorem test_V_LD_9 :
    gives (start platformConfig [0x00000002_00005118, 0x00000000_00000000, 0x95] [] []) [(1, some 0x00000000_70000100)] [] 2 = true := by decide

/-- V-LD-10, `LD_MAP_IDX_VALUE r1, imm=0x2, next_imm=0x8`, MAPS_SUPPORTED = true, VARS_SUPPORTED = true, example platform (R319). -/
theorem test_V_LD_10 :
    gives (start platformConfig [0x00000002_00006118, 0x00000008_00000000, 0x95] [] []) [(1, some 0x00000000_00030008)] [] 2 = true := by decide

/-- V-LD-13, `LD_IMM64 r1 as the last slot of the program` (R313). -/
theorem test_V_LD_13 :
    faults (start specConfig [0x00000001_00000118] [] []) (.illegalInstruction 0 0x00000001_00000118 .badWide) = true := by decide

/-- V-LD-18, `LD_ABS_W` (R323). -/
theorem test_V_LD_18 :
    faults (start specConfig [0x00000000_00000020, 0x95] [] []) (.illegalInstruction 0 0x00000000_00000020 .legacy) = true := by decide

/-- V-LD-19, `LD_IND_DW` (R330). -/
theorem test_V_LD_19 :
    faults (start specConfig [0x00000004_00001058, 0x95] [(1, 0x00000000_00000000)] []) (.illegalInstruction 0 0x00000004_00001058 .legacy) = true := by decide

/-- V-CE-1, `CALL_HELPER 7`, HELPERS = example table (R250). -/
theorem test_V_CE_1 :
    gives (start helperConfig [0x00000007_00000085, 0x95] [(1, 0x00000000_00000003), (2, 0x00000000_00000004), (6, 0x00000000_00000066)] []) [(0, some 0x00000000_00000007), (6, some 0x00000000_00000066), (1, none), (2, none), (3, none), (4, none), (5, none)] [] 1 = true := by decide

/-- V-CE-3, `CALL_HELPER 8`, HELPERS = example table (R250). -/
theorem test_V_CE_3 :
    faults (start helperConfig [0x00000008_00000085, 0x95] [(1, 0x00000000_00000003), (2, 0x00000000_00000004)] []) (.unknownFunction 0 .helper 8) = true := by decide

/-- V-CE-6, `CALL_RUNTIME 1`, RUNTIME_FUNCS = example table (R252). -/
theorem test_V_CE_6 :
    gives (start runtimeConfig [0x00000001_00002085, 0x95] [(1, 0x00000000_00000003)] []) [(0, some 0x00000000_00000006), (1, none)] [] 1 = true := by decide

/-- V-CE-7, `CALL_LOCAL +3 (offset reading)` (R251). -/
theorem test_V_CE_7 :
    gives (start specConfig [0x00000000_00031085, 0x95] [(6, 0x00000000_00000066)] []) [(10, some 0x00000000_0000fe00), (6, none)] [] 4 = true := by decide

/-- V-CE-9, `CALL_LOCAL, offset = 3 under the imm reading`, LOCAL_CALL_DISP = imm (R251). -/
theorem test_V_CE_9 :
    faults (start { specConfig with localCallDisp := .imm } [0x00000000_00031085, 0x95] [] []) (.illegalInstruction 0 0x00000000_00031085 .nonzeroUnusedField) = true := by decide

/-- V-CE-10, `CALL_LOCAL +3`, MAX_CALL_DEPTH = 1 (R251). -/
theorem test_V_CE_10 :
    faults (start { specConfig with maxCallDepth := 1 } [0x00000000_00031085, 0x95] [] []) (.callDepthExceeded 0) = true := by decide

/-- V-CE-14, `EXIT` (R253). -/
theorem test_V_CE_14 :
    ends (start specConfig [0x00000000_00000095, 0x95] [(0, 0xffffffff_00000009)] []) 0xffffffff_00000009 = true := by decide

/-- V-CE-16, `(0x95 with imm = 1)` (R253). -/
theorem test_V_CE_16 :
    faults (start specConfig [0x00000001_00000095, 0x95] [(0, 0x00000000_00000000)] []) (.illegalInstruction 0 0x00000001_00000095 .nonzeroUnusedField) = true := by decide

/-- V-IL-1, `(opcode 0x00 at a first slot)` (R96). -/
theorem test_V_IL_1 :
    faults (start specConfig [0x00000000_00000000, 0x95] [] []) (.illegalInstruction 0 0x00000000_00000000 .undefinedOpcode) = true := by decide

/-- V-IL-27, `ADD64_X r2, r1 (both unwritten)` (R345). -/
theorem test_V_IL_27 :
    faults (start specConfig [0x00000000_0000120f, 0x95] [] []) (.unwrittenRegister 0 1) = true := by decide

/-- V-IL-32, `ADD64_K r10, 1 with src = 1 (two causes)` (R352). -/
theorem test_V_IL_32 :
    faults (start specConfig [0x00000001_00001a07, 0x95] [] []) (.illegalInstruction 0 0x00000001_00001a07 .badRegister) = true := by decide

/-- V-IL-33, `LDX_W r1, [r2+1] (x[2] unwritten, misaligned)` (R352). -/
theorem test_V_IL_33 :
    faults (start specConfig [0x00000000_00012161, 0x95] [] []) (.unwrittenRegister 0 2) = true := by decide

/-! ### Witnesses: states and operands that meet the hypotheses of the obligations -/

/-- x[1] and x[2] hold values, x[3] to x[9] none. -/
def twoRegs (c : Config) : State := start c [0x95] [(1, 0x80000000), (2, 32)] []

/-- As `specConfig`, refusing a shift by the width or more. -/
def refuseConfig : Config := { specConfig with shiftOverwidth := .refuse }

/-- The destinations and the sources that a register may or may not be (R94, R345). -/
theorem witness_registers : writableReg 10 = false ∧ writableReg 9 = true ∧ writableReg 0 = true ∧
    canRead (twoRegs specConfig) 3 = false ∧ canRead (twoRegs specConfig) 1 = true ∧
    canRead (twoRegs Config.atReset) 3 = true := by decide

/-- Alu32ImmediateForms, Alu64ImmediateForms: the clauses of `AluImmRule` and of MOV, a shift count of the width refused, one
less not. -/
theorem witness_AluImmediateForms :
    (writableReg 10 = false) ∧ (writableReg 3 = true ∧ canRead (twoRegs specConfig) 3 = false) ∧
    (writableReg 1 = true ∧ canRead (twoRegs refuseConfig) 1 = true ∧
      aluResult refuseConfig .lsh (lo32 (draw (twoRegs refuseConfig) 1).1) 32 = none ∧
      aluResult refuseConfig .arsh (draw (twoRegs refuseConfig) 1).1 64 = none ∧
      aluResult refuseConfig .lsh (lo32 (draw (twoRegs refuseConfig) 1).1) 31 = some 0 ∧
      aluResult refuseConfig .rsh (draw (twoRegs refuseConfig) 1).1 63 = some 0 ∧
      aluResult refuseConfig .add (lo32 (draw (twoRegs refuseConfig) 1).1) 0x80000000 = some 0) := by decide

/-- Alu32RegisterForms, Alu64RegisterForms: one or both registers without a value, and both with one. -/
theorem witness_AluRegisterForms :
    (writableReg 1 = true ∧ ¬ (canRead (twoRegs specConfig) 1 = true ∧ canRead (twoRegs specConfig) 3 = true)) ∧
    (writableReg 3 = true ∧ ¬ (canRead (twoRegs specConfig) 3 = true ∧ canRead (twoRegs specConfig) 4 = true)) ∧
    (writableReg 1 = true ∧ canRead (twoRegs refuseConfig) 1 = true ∧ canRead (twoRegs refuseConfig) 2 = true ∧
      aluResult refuseConfig .lsh (lo32 (draw (twoRegs refuseConfig) 1).1)
        (lo32 (draw (draw (twoRegs refuseConfig) 1).2 2).1) = none ∧
      aluResult refuseConfig .lsh (draw (twoRegs refuseConfig) 1).1
        (draw (draw (twoRegs refuseConfig) 1).2 2).1 = some 0x80000000_00000000) := by decide

/-- NegationForms, ByteSwapForms, ByteSwapTwice: the clauses of `UnaryRule`, and two byte swaps in a row. -/
theorem witness_unary : writableReg 10 = false ∧ (writableReg 3 = true ∧ canRead (twoRegs specConfig) 3 = false) ∧
    (writableReg 1 = true ∧ canRead (twoRegs specConfig) 1 = true) := by decide

theorem witness_ByteSwapTwice : (twoRegs specConfig).x[(1 : RegNum)].written = true ∧
    ∃ t u, exec (.be32 1) (twoRegs specConfig) = .next t ∧ exec (.be32 1) t = .next u :=
  ⟨rfl, _, _, rfl, rfl⟩

/-- Jump64ImmediateForms to Jump32RegisterForms: no value; a condition that holds and one that does not. -/
theorem witness_jumps : canRead (twoRegs specConfig) 3 = false ∧ canRead (twoRegs specConfig) 1 = true ∧
    canRead (twoRegs specConfig) 2 = true ∧
    ¬ (canRead (twoRegs specConfig) 1 = true ∧ canRead (twoRegs specConfig) 3 = true) ∧
    ((draw (twoRegs specConfig) 2).1 == (32#32).signExtend 64) = true ∧
    ((draw (twoRegs specConfig) 2).1 == (33#32).signExtend 64) = false := by decide

/-- A description with two outcomes where the first argument is not 0, and with none where it is. -/
def twoOutcomes : FunDesc :=
  ⟨2, false, [⟨.arg 0, [⟨.const 0, [], .const 1⟩, ⟨.any (.const 0), [], .const 0⟩]⟩]⟩

/-- A function that writes twice to one byte and is described as able to fault, one that always fails, one that takes five
arguments, one with two outcomes for certain arguments, and one that copies bytes. -/
def callConfig : Config :=
  { specConfig with
    helpers := [(1, ⟨0, true, [⟨.const 1, [⟨.const 5, [⟨.const 2, .const 0xf000, .op .add .index (.const 1)⟩], .const 0⟩]⟩]⟩),
      (2, ⟨0, true, [⟨.const 1, [⟨.const 0, [], .const 1⟩]⟩]⟩), (3, ⟨5, false, []⟩), (4, twoOutcomes), (5, copyFunction)]
    runtimeFuncs := [(1, ⟨1, false, []⟩)] }

/-- FunctionCalls: an unknown number, an argument without a value (at the highest arity), a declared failure, and calls
that return. -/
theorem witness_FunctionCalls :
    (functionsOf callConfig .helper).lookup 0 = none ∧ (functionsOf callConfig .runtime).lookup 2 = none ∧
    (∃ f, (functionsOf callConfig .helper).lookup 3 = some f ∧
      ∃ r ∈ argRegs f.arity, canRead (twoRegs callConfig) r = false) ∧
    (∃ f, (functionsOf callConfig .helper).lookup 2 = some f ∧
      (∀ r ∈ argRegs f.arity, canRead (twoRegs callConfig) r = true) ∧ f.canFail = true ∧
      (functionOutcome callConfig f .helper 2 (drawAll (twoRegs callConfig) (argRegs f.arity)).1 (twoRegs callConfig).mem
        (drawAll (twoRegs callConfig) (argRegs f.arity)).2.fresh).fails = true) ∧
    (∃ f, (functionsOf callConfig .helper).lookup 1 = some f ∧
      (∀ r ∈ argRegs f.arity, canRead (twoRegs callConfig) r = true) ∧
      ¬ (f.canFail = true ∧ (functionOutcome callConfig f .helper 1 (drawAll (twoRegs callConfig) (argRegs f.arity)).1
        (twoRegs callConfig).mem (drawAll (twoRegs callConfig) (argRegs f.arity)).2.fresh).fails = true)) ∧
    (∃ f, (functionsOf callConfig .runtime).lookup 1 = some f ∧
      (∀ r ∈ argRegs f.arity, canRead (twoRegs callConfig) r = true) ∧ f.canFail = false) :=
  ⟨rfl, rfl, ⟨_, rfl, 3, by decide, rfl⟩, ⟨_, rfl, by decide, rfl, rfl⟩, ⟨_, rfl, by decide, by decide⟩,
    ⟨_, rfl, by decide, rfl⟩⟩

/-- The outcome of a call is stored, its last write to an address standing (R247, R250). -/
theorem test_helper_writes :
    gives (start callConfig [0x00000001_00000085, 0x95] [] []) [(0, some 5), (1, none), (5, none)] [(0xf000, [2])] 1
      = true := by decide

/-- A described function reads data memory through its arguments and replaces other bytes of it (R247). -/
theorem test_helper_copies :
    gives (start callConfig [0x00000005_00000085, 0x95] [(1, 0xf000), (2, 0xf008), (3, 2)] [(0xf000, [7, 7, 7]), (0xf008, [1, 2])])
      [(0, some 2), (1, none)] [(0xf000, [1, 2, 7]), (0xf008, [1, 2])] 1 = true := by decide

/-- The same function, given bytes of which one lies beyond the stack region (R348). -/
theorem test_helper_fails_on_pointer :
    faults (start callConfig [0x00000005_00000085, 0x95] [(1, 0xf000), (2, 0xffff), (3, 2)] []) (.helperFault 0 .helper 5)
      = true := by decide

/-- A loop of a description: the sum of 1, 2 and 3. -/
theorem test_description_loop : funValue (.loop (.arg 0) (.const 0) (.op .add .acc (.op .add .index (.const 1))))
    (callInput specConfig [3] [] 0) = 6 := by decide

/-- FunctionOutcomes: a description with a case of two outcomes that applies, and arguments for which none does. -/
theorem witness_FunctionOutcomes :
    twoOutcomes.wf = true ∧
    (∃ k, twoOutcomes.cases.find? (fun e => funValue e.guard (callInput specConfig [1, 2] [] 0) != 0) = some k) ∧
    ∀ k ∈ twoOutcomes.cases, funValue k.guard (callInput specConfig [0, 2] [] 0) = 0 :=
  ⟨by decide, ⟨_, rfl⟩, by decide⟩

/-- A state in a called function: one record on the call stack. -/
def inCallee (c : Config) : State :=
  { start c [0x00000000_00001085, 0x95] [(0, 9), (10, 0xfe00)] [] with
    frames := [⟨1, Reg.of 6, Reg.none, Reg.of 8, Reg.none, Reg.of 0x10000⟩] }

/-- LocalCall: the unused field under `imm`, the depth reached, the depth one less, and R10 without a value. -/
theorem witness_LocalCall :
    ({ specConfig with localCallDisp := .imm }.localCallDisp = .imm ∧ (1#16) ≠ 0) ∧
    ((inCallee { specConfig with maxCallDepth := 2 }).frames.length + 1 ≥ 2) ∧
    ((inCallee { specConfig with maxCallDepth := 3 }).frames.length + 1 < 3 ∧
      canRead (inCallee { specConfig with maxCallDepth := 3 }) 10 = true) ∧
    ((dropReg (inCallee specConfig) 10).frames.length + 1 < specConfig.maxCallDepth ∧
      canRead (dropReg (inCallee specConfig) 10) 10 = false) ∧
    ((twoRegs { specConfig with maxCallDepth := 1 }).frames.length + 1 ≥ 1) := by decide

/-- ExitForms: x[0] without a value; with one, outside and inside a called function. -/
theorem witness_ExitForms : canRead (twoRegs specConfig) 0 = false ∧
    (canRead (twoRegs Config.atReset) 0 = true ∧ (twoRegs Config.atReset).frames = []) ∧
    (canRead (inCallee specConfig) 0 = true ∧
      ∃ f rest, (inCallee specConfig).frames = f :: rest) := ⟨rfl, ⟨rfl, rfl⟩, rfl, _, _, rfl⟩

/-- A stack region, a read-only region and a shared region beside each other. -/
def mapConfig : Config :=
  { specConfig with
    regions := [⟨0xf000, 0x1000, true, true, false⟩, ⟨0x20000, 8, true, false, false⟩, ⟨0x20008, 0x100, true, true, true⟩,
      ⟨2 ^ 64 - 8, 8, false, true, false⟩] }

/-- The first and the last address of each region, and the ones beside it (R57): where an access of 8 bytes is admitted. -/
theorem witness_admit :
    admits mapConfig 0xf000 8 .read = true ∧ admits mapConfig 0xeff8 8 .read = false ∧
    admits mapConfig 0xfff8 8 .atomic = true ∧ admits mapConfig 0x10000 1 .read = false ∧
    admits mapConfig 0x20000 8 .read = true ∧ admits mapConfig 0x20000 8 .write = false ∧
    admits mapConfig 0x20004 8 .read = false ∧ admits mapConfig (2 ^ 64 - 8) 8 .write = true ∧
    admits mapConfig (2 ^ 64 - 8) 8 .atomic = false ∧ admits mapConfig (2 ^ 64 - 4) 8 .write = false := by decide

/-- A base register at an address, with x[2] and x[0] holding values. -/
def based (c : Config) (a : Word) : State := start c [0x95] [(0, 7), (1, a), (2, 5)] []

/-- LoadForms, StoreImmediateForms, StoreRegisterForms: a base without a value; an address misaligned, outside every region,
in a region without the permission, and admitted. -/
theorem witness_regularAccess :
    (∀ n ∈ [2, 4, 8], ¬ RegularAligned mapConfig 0xf001 n) ∧
    (∀ n ∈ [1, 2, 4, 8], RegularAligned mapConfig 0x10000 n ∧ ¬ Admitted mapConfig 0x10000 n Region.readable ∧
      ¬ Admitted mapConfig 0x10000 n Region.writable) ∧
    (∀ n ∈ [1, 2, 4, 8], RegularAligned mapConfig 0x20000 n ∧ ¬ Admitted mapConfig 0x20000 n Region.writable ∧
      Admitted mapConfig 0x20000 n Region.readable) ∧
    (∀ n ∈ [1, 2, 4, 8], RegularAligned mapConfig 0xf000 n ∧ Admitted mapConfig 0xf000 n Region.writable ∧
      Admitted mapConfig 0xf000 n Region.readable) ∧
    (∀ n ∈ [1, 2, 4, 8], RegularAligned { mapConfig with strictAlign := false } 0xf001 n) ∧
    (∀ a ∈ [0xf000#64, 0xf001, 0x10000, 0x20000], canRead (based mapConfig a) 1 = true ∧
      canRead (based mapConfig a) 2 = true ∧ (draw (based mapConfig a) 1).1 + (0#16).signExtend 64 = a) ∧
    canRead (based mapConfig 0) 3 = false ∧ writableReg 3 = true := by
  unfold RegularAligned Admitted
  refine ⟨by decide, by decide, by decide, by decide, by decide, fun a _ => ⟨rfl, rfl, ?_⟩, by decide, by decide⟩
  exact BitVec.add_zero a

/-- Atomic32Forms, Atomic64Forms, CompareExchangeForms: x[src] written where it is R10; a register without a value; an
address misaligned, not admitted, and admitted; memory that equals x[0] and memory that does not. -/
theorem witness_atomic :
    ((!false || writableReg 10) = true ∧ writableReg 10 = false) ∧
    ((!true || writableReg 2) = true ∧ canRead (based mapConfig 0xf000) 1 = true ∧
      canRead (based mapConfig 0xf000) 2 = true ∧ canRead (based mapConfig 0xf000) 0 = true ∧
      canRead (based mapConfig 0xf000) 3 = false ∧ canRead (twoRegs specConfig) 0 = false) ∧
    (∀ n ∈ [4, 8], (0xf002#64).toNat % n ≠ 0 ∧ (0x20000#64).toNat % n = 0 ∧
      ¬ Admitted mapConfig 0x20000 n Region.readWrite ∧ (0xf000#64).toNat % n = 0 ∧
      Admitted mapConfig 0xf000 n Region.readWrite) ∧
    (draw (based mapConfig 0xf000) 1).1 + (0#16).signExtend 64 = 0xf000 ∧
    (readValue (start mapConfig [] [] [(0xf000, [7, 0, 0, 0])]) 0xf000 4 = 7 ∧
      readValue (start mapConfig [] [] [(0xf000, [8, 0, 0, 0])]) 0xf000 4 ≠ 7) := by
  unfold Admitted; decide

/-- LoadConstant64, LoadPlatformAddresses: R10; a form that is not supported; a function undefined for its argument; and a
value given. -/
theorem witness_imm64 : writableReg 10 = false ∧ writableReg 1 = true ∧
    (mapByFd specConfig 5 = none ∧ variableAddr specConfig 9 = none) ∧
    (mapByFd platformConfig 6 = none ∧ mapByIdx platformConfig 3 = none ∧ variableAddr platformConfig 8 = none) ∧
    (mapByFd platformConfig 5 = some 0x70000000 ∧
      (mapByFd platformConfig 5).bind (mapValueAddr platformConfig) = some 0x20000 ∧
      (mapByIdx platformConfig 2).bind (mapValueAddr platformConfig) = some 0x30000 ∧
      variableAddr platformConfig 9 = some 0x40000) := by decide

/-- `code_addr` is given the index of the slot and the signed offset (R317). -/
theorem test_ld_code_addr :
    gives { start { specConfig with codeAddr := .table [((1, -2), 0x50)] } [0x95, 0xfffffffe_00004118, 0x00000000_00000000] [] []
      with pc := 1 } [(1, some 0x50)] [] 3 = true := by decide

/-- PseudoSlotRefused: the second slot of a wide instruction reached by the pc. -/
theorem witness_PseudoSlotRefused :
    let s := { start specConfig [0x00000001_00000118, 0x00000001_00000000, 0x95] [] [] with pc := 1 }
    s.status = .running ∧ slotAt s.cfg s.pc = some 0x00000001_00000000 ∧
      (0x00000001_00000000 : Slot).extractLsb' 0 8 = 0 := by decide

/-- DecodeEncode, EncodeDecode, OpcodeMap: well-formed instructions, words that decode, an opcode without a row. -/
theorem witness_encoding : (Instr.stxDW 10 0x8000 10).wf = true ∧ (Instr.ldMapIdxValue 9 0xffffffff 0xffffffff).wf = true ∧
    (decodeTableWord 64 0x00000000_80001a7b).isSome = true ∧
    Fields.opcode (Fields.ofSlot 0x00000000_0000018d) ∉ opcodeTable.map Prod.fst := by decide

/-- StepRunsDecoded: the last slot of a program, and a wide instruction. -/
theorem witness_StepRunsDecoded :
    let s := { start specConfig [0x00000001_00000118, 0x00000001_00000000, 0x95] [] [] with pc := 2 }
    s.status = .running ∧ slotAt s.cfg s.pc = some 0x95 ∧ decodeSlots 0x95 (slotAt s.cfg (s.pc + 1)) = .ok .exit ∧
      decodeSlots 0x00000001_00000118 (slotAt s.cfg 1) = .ok (.ldImm64 1 1 1) := ⟨rfl, rfl, rfl, rfl⟩

/-- FetchFaults: the pc just before and just after the program; a slot that is no instruction. -/
theorem witness_FetchFaults :
    let s := start specConfig [0x00000000_0000018d, 0x95] [] []
    s.status = .running ∧ ((-1 : Int) < 0 ∧ (s.cfg.program.length : Int) ≤ 2) ∧
      slotAt s.cfg 0 = some 0x00000000_0000018d ∧
      decodeSlots 0x00000000_0000018d (slotAt s.cfg 1) = .error .undefinedOpcode ∧ slotAt s.cfg 2 = none :=
  ⟨rfl, by decide, rfl, rfl, rfl⟩

theorem canonical_fixed (s : State) (h : ∀ r : RegNum, (s.x[r]).written = true ∨ s.x[r] = Reg.none) :
    ∀ r : RegNum, (s.x[r]).canonical := by
  intro r hw
  rcases h r with h | h
  · rw [h] at hw; cases hw
  · exact h

/-- StepKeepsInvariant, ParametersFixed: a local call, in a state of the invariant, and a state in a called function. -/
theorem witness_StepKeepsInvariant :
    StateInv (start specConfig [0x00000000_00001085, 0x95] [(0, 9)] [(0xfff8, [1, 2])]) ∧
      (∃ t, step (start specConfig [0x00000000_00001085, 0x95] [(0, 9)] [(0xfff8, [1, 2])]) = .next t) ∧
    StateInv (inCallee specConfig) ∧ ∃ t, step { inCallee specConfig with pc := 1 } = .next t :=
  ⟨⟨by decide, by decide, trivial, .inl rfl, canonical_fixed _ (by decide)⟩, ⟨_, rfl⟩,
    ⟨by decide, by decide,
      by simp only [inCallee, framesOk, Reg.canonical]; decide, .inr (by decide),
      canonical_fixed _ (by decide)⟩, ⟨_, rfl⟩⟩

/-- EntryState: no argument, and five. -/
theorem witness_EntryState : Config.default.entryArgs.length ≤ 5 ∧
    { specConfig with entryArgs := [1, 2, 3, 4, 5] }.entryArgs.length ≤ 5 := by decide

theorem test_entry_five : (State.entry { specConfig with entryArgs := [1, 2, 3, 4, 5] } [] []).x =
    #v[Reg.none, Reg.of 1, Reg.of 2, Reg.of 3, Reg.of 4, Reg.of 5, Reg.none, Reg.none, Reg.none, Reg.none, Reg.of 0x10000] := by
  decide

/-- CallStackAndFramePointer, MemoryInstructions: an addition, a load, a call and a return that give a next state. -/
theorem witness_frames :
    (∃ t, exec (.add64X 1 2) (twoRegs specConfig) = .next t) ∧
    (∃ t, exec (.callLocal 0 0) (twoRegs specConfig) = .next t) ∧ (∃ t, exec .exit (inCallee specConfig) = .next t) ∧
    (∃ t, exec (.ldxB 3 10 0xffff) (twoRegs specConfig) = .next t) ∧
    ((Fields.ofSlot ((encode (.ldxB 3 10 0xffff)).headD 0)).opcode.extractLsb' 0 3 ≠ 2 ∧
      (Fields.ofSlot ((encode (.ldxB 3 10 0xffff)).headD 0)).opcode.extractLsb' 0 3 ≠ 3) :=
  ⟨⟨_, rfl⟩, ⟨_, rfl⟩, ⟨_, rfl⟩, ⟨_, rfl⟩, by decide⟩

/-- EnvironmentOnlyShared, PrivateLoads: the private addresses just before and just after a shared region, and its first and
last one. -/
theorem witness_shared :
    isShared mapConfig 0x20007 = false ∧ isShared mapConfig 0x20008 = true ∧ isShared mapConfig 0x20107 = true ∧
    isShared mapConfig 0x20108 = false ∧ (∀ k, k < 8 → isShared mapConfig (0x20000 + k) = false) ∧
    (∀ r ∈ mapConfig.regions, r.shared = true → ¬ (r.base ≤ 0x20007 ∧ 0x20007 < r.base + r.size)) ∧
    (∀ r ∈ mapConfig.regions, r.shared = true → ¬ (r.base ≤ 0x20108 ∧ 0x20108 < r.base + r.size)) := by decide

/-- The environment replaces a byte of a shared region and not one of another (R67). -/
theorem test_environment : gives
    { start mapConfig [0x00000000_00000005, 0x95] [] [(0xfff8, [1]), (0x20008, [2])] with
      env := [⟨[(0xfff8, 9), (0x20008, 8)], []⟩] } [] [(0xfff8, [1]), (0x20008, [8])] 1 = true := by decide

/-- A load of two shared bytes that is not indivisible finds one of them changed during the step (R60). -/
theorem test_torn_load : gives
    { start mapConfig [0x00000000_00001269, 0x95] [(1, 0x20008)] [(0x20008, [0x11, 0x22])] with
      env := [⟨[], [(0x20009, 0x33)]⟩] } [(2, some 0x3311)] [(0x20008, [0x11, 0x22])] 1 = true := by decide

/-- The same load, indivisible (R60). -/
theorem test_whole_load : gives
    { start { mapConfig with regularAccessAtomic := true } [0x00000000_00001269, 0x95] [(1, 0x20008)] [(0x20008, [0x11, 0x22])] with
      env := [⟨[], [(0x20009, 0x33)]⟩] } [(2, some 0x2211)] [] 1 = true := by decide

/-- ReadingRegisters: a register with a value, and one without. -/
theorem witness_ReadingRegisters : (twoRegs specConfig).x[(1 : RegNum)].written = true ∧
    (twoRegs specConfig).x[(3 : RegNum)].written = false := by decide

/-- StoreThenLoad: each width at the last place of the stack region. -/
theorem witness_StoreThenLoad :
    let s := based mapConfig 0x10000
    s.x[(1 : RegNum)].written = true ∧ s.x[(2 : RegNum)].written = true ∧ writableReg 3 = true ∧
    (∀ e ∈ [(1, 0xffff#16), (2, 0xfffe#16), (4, 0xfffc#16), (8, 0xfff8#16)],
      (∀ k, k < e.1 → isShared s.cfg ((effAddr s.x[(1 : RegNum)].value e.2).toNat + k) = false) ∧
      Admitted s.cfg (effAddr s.x[(1 : RegNum)].value e.2) e.1 Region.readable) ∧
    (∃ t, exec (.stxB 1 0xffff 2) s = .next t) ∧ (∃ t, exec (.stxH 1 0xfffe 2) s = .next t) ∧
    (∃ t, exec (.stxW 1 0xfffc 2) s = .next t) ∧ ∃ t, exec (.stxDW 1 0xfff8 2) s = .next t :=
  ⟨rfl, rfl, rfl, by unfold Admitted; decide, ⟨_, rfl⟩, ⟨_, rfl⟩, ⟨_, rfl⟩, ⟨_, rfl⟩⟩

/-- CallThenExit: a call, and the return of a callee that has set x[0]. -/
theorem witness_CallThenExit : ∃ t u v, exec (.callLocal 3 0) (twoRegs specConfig) = .next t ∧ u.frames = t.frames ∧
    exec .exit u = .next v :=
  ⟨_, setReg (setReg (enterFunction (twoRegs specConfig) 0x10000 3) 0 5) 6 7, _, rfl, rfl, rfl⟩

/-- ExitEndsRun: a state that has ended. -/
theorem witness_ExitEndsRun : ends (start specConfig [0x95] [(0, 0xffffffff_00000009)] []) 0xffffffff_00000009 = true := by
  decide

/-- FaultsArePrecise: a running state whose step faults. -/
theorem witness_FaultsArePrecise : (twoRegs specConfig).status = .running ∧
    step (twoRegs specConfig) = .fault (.unwrittenRegister 0 0) := ⟨rfl, rfl⟩

/-- Alu32IgnoresUpperHalves: two states that differ in the upper halves only. -/
theorem witness_Alu32IgnoresUpperHalves :
    let s := twoRegs specConfig
    let s' := start specConfig [0x95] [(1, 0xffffffff_80000000), (2, 0x1_00000020)] []
    s'.cfg = s.cfg ∧ s.x[(1 : RegNum)].written = true ∧ s'.x[(1 : RegNum)].written = true ∧
    s.x[(2 : RegNum)].written = true ∧ s'.x[(2 : RegNum)].written = true ∧
    lo32 s'.x[(1 : RegNum)].value = lo32 s.x[(1 : RegNum)].value ∧
    lo32 s'.x[(2 : RegNum)].value = lo32 s.x[(2 : RegNum)].value ∧
    (∃ t, alu32X .div 1 2 s = .next t) ∧ ∃ t, alu32X .div 1 2 s' = .next t :=
  ⟨rfl, rfl, rfl, rfl, rfl, rfl, rfl, ⟨_, rfl⟩, ⟨_, rfl⟩⟩

/-- A program that the loader accepts: a jump back, a wide instruction, a local call, a load and the return. -/
def loadedConfig : Config :=
  { specConfig with
    program := [0x00000000_00021085, 0x00000001_00000118, 0x00000001_00000000, 0x00000000_00002171, 0x00000000_fffb0005,
      0x00000000_00000095] }

/-- LoadedProgramNeverIllegal, LoadedProgramStaysOnStarts: an accepted program, a first slot of it where a step faults (x[2]
holds no value), and ones where it does not, inside a called function too. -/
theorem witness_LoadedProgram : loaderFault loadedConfig = none ∧
    (∃ is, scan 0 loadedConfig.program = .ok is ∧ (∃ e ∈ is, (3 : Int) = e.1) ∧ (∃ e ∈ is, (0 : Int) = e.1) ∧
      ∀ f ∈ [(⟨1, Reg.none, Reg.none, Reg.none, Reg.none, Reg.of 0⟩ : Frame)],
        (∃ e ∈ is, f.retPc = e.1) ∨ f.retPc = loadedConfig.program.length) ∧
    (∃ f, step { start loadedConfig loadedConfig.program [] [] with pc := 3 } = .fault f) ∧
    (∃ t, step (start loadedConfig loadedConfig.program [] []) = .next t) :=
  ⟨by decide, ⟨_, rfl, by decide, by decide, by decide⟩, ⟨_, rfl⟩, ⟨_, rfl⟩⟩

/-- A jump to the pseudo slot of a wide instruction. -/
def pseudoTarget : Config :=
  { specConfig with program := [0x00000000_00010005, 0x00000007_00000018, 0x00000009_00000000, 0x95] }

theorem test_loader_pseudo_target :
    loaderFault pseudoTarget = some (.illegalInstruction 2 0x00000009_00000000 .undefinedOpcode) := by decide
theorem test_loader_target_outside :
    loaderFault { specConfig with program := [0x00000000_00010005, 0x95] } = some (.pcOutOfRange 2) := by decide

/-- LoaderNamesTheFault: a target on a pseudo slot, and one before the program. -/
theorem witness_LoaderNamesTheFault :
    ∃ is, scan 0 pseudoTarget.program = .ok is ∧
      targetFault pseudoTarget (is.map Prod.fst) 0 (some 1) = some (.illegalInstruction 2 0x00000009_00000000 .undefinedOpcode) ∧
      targetFault pseudoTarget (is.map Prod.fst) 0 (some (-2)) = some (.pcOutOfRange (-1)) ∧
      ({ State.entry pseudoTarget [] [] with pc := 2 } : State).status = .running :=
  ⟨_, rfl, rfl, rfl, rfl⟩

theorem test_loader_too_long : loaderFault { loadedConfig with maxInsns := some 4 } ≠ none := by decide
theorem test_loader_unknown_function :
    loaderFault { specConfig with program := [0x00000008_00000085, 0x95] } = some (.unknownFunction 0 .helper 8) := by decide
theorem test_loader_legacy :
    loaderFault { specConfig with program := [0x00000000_00000020, 0x95] }
      = some (.illegalInstruction 0 0x20 .legacy) := by decide

/-- A later run finds the shared bytes and those that the host places, and draws on (R373, R375 (4), R379). -/
theorem test_next_run :
    let s := { start mapConfig [] [] [(0xf000, [1]), (0x20000, [2]), (0x20008, [3, 4])] with fresh := 5 }
    (nextRun s mapConfig [(0x20000, 6), (0x20009, 7)] []).mem = [(0x20000, 6), (0x20008, 3), (0x20009, 7)] ∧
      (nextRun s mapConfig [] []).fresh = 11 := by decide

end Sys2Proof.Tests
end

/-! The state (`10_state.md`): reading registers, the entry state, what the instructions that are neither a local call nor EXIT can
do to a state, and what follows for the parameters, the call stack and the frame pointer. -/

namespace Sys2Proof.Machine

/-! ## Reading registers (R35) -/

theorem canRead_iff (s : State) (r : RegNum) :
    canRead s r = true ↔ s.x[r].written = true ∨ s.cfg.unwrittenRead = .any := by
  simp only [canRead, Bool.or_eq_true, beq_iff_eq]

/-- Settles O40: a register with a value yields it and the same state; one without yields the next free value, and only the count of
free values moves. -/
theorem readingRegisters : Obligations.ReadingRegisters := by
  intro s r
  refine ⟨canRead_iff s r, draw_of_written s r, fun h => ?_⟩
  rw [draw_of_unwritten s r h]
  exact ⟨rfl, rfl, rfl, rfl, rfl, rfl⟩

/-! ## The entry state (R36, R371) -/

/-- The registers of the entry state, by number. -/
theorem entry_x (c : Config) (m : Memory) (env : List EnvMove) (r : RegNum) :
    (State.entry c m env).x[r] = entryReg c r.val := by
  fin_cases r <;> rfl

theorem entryReg_fp (c : Config) : entryReg c 10 = Reg.of c.stackTop := rfl

/-- Register R(k+1) holds the argument with index k (R36). -/
theorem entryReg_arg (c : Config) (k : Nat) (h : k < c.entryArgs.length) (h5 : c.entryArgs.length ≤ 5) :
    entryReg c (k + 1) = Reg.of c.entryArgs[k] := by
  have not_fp : ¬ k + 1 = 10 := by omega
  have scratch : 1 ≤ k + 1 ∧ k + 1 ≤ 5 := by omega
  simp [entryReg, not_fp, scratch, h]

/-- R0 and the registers past the last argument hold no value, but for R10 (R36). -/
theorem entryReg_none (c : Config) (i : Nat) (h10 : i ≠ 10) (h : i = 0 ∨ c.entryArgs.length < i) :
    entryReg c i = Reg.none := by
  simp only [entryReg, h10, if_false]
  split
  · have past : c.entryArgs.length ≤ i - 1 := by omega
    rw [List.getElem?_eq_none past]
  · rfl

theorem of_canonical (v : Word) : (Reg.of v).canonical := fun h => nomatch h

theorem none_canonical : Reg.none.canonical := fun _ => rfl

theorem entryReg_canonical (c : Config) (i : Nat) : (entryReg c i).canonical := by
  simp only [entryReg]
  split
  · exact of_canonical _
  · split
    · split
      · exact of_canonical _
      · exact none_canonical
    · exact none_canonical

/-- Every run begins in the invariant, whatever its parameters, where the host leaves memory in canonical form. -/
theorem stateInv_entry (c : Config) (m : Memory) (env : List EnvMove) (hm : m.wf = true) :
    StateInv (State.entry c m env) where
  mem := hm
  fp := by
    have top : c.stackTop - 512 * BitVec.ofNat 64 0 = c.stackTop := by simp
    exact (entryReg_fp c).trans (congrArg Reg.of top.symm)
  saved := trivial
  depth := .inl rfl
  regs r := entry_x c m env r ▸ entryReg_canonical c r.val

/-- Settles O33: reset is the entry state of a run with empty memory. -/
theorem resetInvariant : Obligations.ResetInvariant :=
  stateInv_entry Config.atReset [] [] rfl

/-- Settles O34, from what `entryReg` holds of an argument, of R10 and of every other register. -/
theorem entryState : Obligations.EntryState := by
  intro c m env h5
  refine ⟨fun k hk r hr => ?_, fun r h10 h => ?_, entryReg_fp c, rfl, rfl, rfl, rfl, rfl⟩
  · rw [entry_x, hr]
    exact entryReg_arg c k hk h5
  · rw [entry_x, entryReg_none c r.val (fun e => h10 (Fin.ext e)) (h.imp (congrArg Fin.val) id)]
    rfl

/-! ## What an instruction does to the state

Every instruction but a local call and EXIT has one of five effects. A claim about all of them is then a case split over five
state updates, not over the instructions. -/

/-- `u` is `s` after some reads of registers: only the count of free values may differ (R35). -/
def AfterReads (s u : State) : Prop := u = { s with fresh := u.fresh }

theorem AfterReads.refl (s : State) : AfterReads s s := rfl

theorem AfterReads.draw {s u : State} (h : AfterReads s u) (r : RegNum) : AfterReads s (draw u r).2 := by
  rw [AfterReads, draw_eq u r, h]

theorem AfterReads.drawAll {s u : State} (h : AfterReads s u) (rs : List RegNum) : AfterReads s (drawAll u rs).2 := by
  induction rs generalizing u with
  | nil => exact h
  | cons r rs ih => exact ih (h.draw r)

theorem AfterReads.x {s u : State} (h : AfterReads s u) : u.x = s.x := by rw [h]

theorem AfterReads.sameRest {s u : State} (h : AfterReads s u) : SameRest s u := by
  constructor <;> rw [h]

/-- What an instruction that is neither a local call nor EXIT does: after its reads it writes one register and moves on, jumps,
stores, does a store and a register write in one, or takes the outcome of a function of the runtime. R10 is not written
(R23, R94), and a store stays inside the address space (R52). -/
inductive OrdinaryEffect (s : State) : State → Prop where
  | register {u : State} (hu : AfterReads s u) {r : RegNum} (hr : writableReg r = true) (v : Word) (n : Nat) :
      OrdinaryEffect s (advance (setReg u r v) n)
  | jump {u : State} (hu : AfterReads s u) (taken : Bool) (disp : Int) : OrdinaryEffect s (branch u taken disp)
  | store {u : State} (hu : AfterReads s u) {a n : Nat} (ha : a + n ≤ 2 ^ 64) (v : Word) :
      OrdinaryEffect s (advance (writeValue u a n v) 1)
  | storeAndRegister {u : State} (hu : AfterReads s u) {a n : Nat} (ha : a + n ≤ 2 ^ 64) (v : Word) {r : RegNum}
      (hr : writableReg r = true) (w : Word) : OrdinaryEffect s (advance (setReg (writeValue u a n v) r w) 1)
  | call {u : State} (hu : AfterReads s u) (o : CallOutcome) : OrdinaryEffect s (afterCall u o)

/-! ### The effect of each shared operation -/

section
variable {s t : State}

theorem alu32K_effect {op : AluOp} {dst : RegNum} {imm : BitVec 32} (h : alu32K op dst imm s = .next t) :
    OrdinaryEffect s t := by
  rw [alu32K_eq] at h
  split_ifs at h with hw hr
  split at h
  · cases h; exact .register (.draw (.refl s) _) hw _ 1
  · cases h

theorem alu32X_effect {op : AluOp} {dst src : RegNum} (h : alu32X op dst src s = .next t) : OrdinaryEffect s t := by
  rw [alu32X_eq] at h
  split_ifs at h with hw hr
  split at h
  · cases h; exact .register (.draw (.draw (.refl s) _) _) hw _ 1
  · cases h

theorem alu64K_effect {op : AluOp} {dst : RegNum} {imm : BitVec 32} (h : alu64K op dst imm s = .next t) :
    OrdinaryEffect s t := by
  rw [alu64K_eq] at h
  split_ifs at h with hw hr
  split at h
  · cases h; exact .register (.draw (.refl s) _) hw _ 1
  · cases h

theorem alu64X_effect {op : AluOp} {dst src : RegNum} (h : alu64X op dst src s = .next t) : OrdinaryEffect s t := by
  rw [alu64X_eq] at h
  split_ifs at h with hw hr
  split at h
  · cases h; exact .register (.draw (.draw (.refl s) _) _) hw _ 1
  · cases h

theorem unary_effect (f : Word → Word) {dst : RegNum} (h : unary f dst s = .next t) : OrdinaryEffect s t := by
  rw [unary_eq] at h
  split_ifs at h with hw hr
  cases h; exact .register (.draw (.refl s) _) hw _ 1

theorem moveConst_effect {n : Nat} {dst : RegNum} {v : Word} (h : moveConst n dst v s = .next t) :
    OrdinaryEffect s t := by
  rw [moveConst_eq] at h
  split_ifs at h with hw
  cases h; exact .register (.refl s) hw v n

theorem moveReg_effect (f : Word → Word) {dst src : RegNum} (h : moveReg f dst src s = .next t) :
    OrdinaryEffect s t := by
  rw [moveReg_eq] at h
  split_ifs at h with hw hr
  cases h; exact .register (.draw (.refl s) _) hw _ 1

theorem loadPlatform_effect {dst : RegNum} {v : Option Word} (h : loadPlatform dst v s = .next t) :
    OrdinaryEffect s t := by
  cases v with
  | none => cases h
  | some w => exact moveConst_effect h

theorem jump64K_effect {c : Cond} {dst : RegNum} {imm : BitVec 32} {off : BitVec 16}
    (h : jump64K c dst imm off s = .next t) : OrdinaryEffect s t := by
  rw [jump64K_eq] at h
  split_ifs at h with hr
  cases h; exact .jump (.draw (.refl s) _) _ _

theorem jump64X_effect {c : Cond} {dst src : RegNum} {off : BitVec 16} (h : jump64X c dst src off s = .next t) :
    OrdinaryEffect s t := by
  rw [jump64X_eq] at h
  split_ifs at h with hr
  cases h; exact .jump (.draw (.draw (.refl s) _) _) _ _

theorem jump32K_effect {c : Cond} {dst : RegNum} {imm : BitVec 32} {off : BitVec 16}
    (h : jump32K c dst imm off s = .next t) : OrdinaryEffect s t := by
  rw [jump32K_eq] at h
  split_ifs at h with hr
  cases h; exact .jump (.draw (.refl s) _) _ _

theorem jump32X_effect {c : Cond} {dst src : RegNum} {off : BitVec 16} (h : jump32X c dst src off s = .next t) :
    OrdinaryEffect s t := by
  rw [jump32X_eq] at h
  split_ifs at h with hr
  cases h; exact .jump (.draw (.draw (.refl s) _) _) _ _

theorem load_effect {n : Nat} {dst src : RegNum} {off : BitVec 16} (h : load n dst src off s = .next t) :
    OrdinaryEffect s t := by
  rw [load_eq] at h
  split_ifs at h with hw hr ha hb
  cases h; exact .register (.draw (.refl s) _) hw _ 1

theorem storeImm_effect {n : Nat} {dst : RegNum} {off : BitVec 16} {imm : BitVec 32}
    (h : storeImm n dst off imm s = .next t) : OrdinaryEffect s t := by
  rw [storeImm_eq] at h
  split_ifs at h with hr ha hb
  cases h; exact .store (.draw (.refl s) _) (admits_bound _ _ _ _ hb) _

theorem storeReg_effect {n : Nat} {dst src : RegNum} {off : BitVec 16} (h : storeReg n dst off src s = .next t) :
    OrdinaryEffect s t := by
  rw [storeReg_eq] at h
  split_ifs at h with hr ha hb
  cases h; exact .store (.draw (.draw (.refl s) _) _) (admits_bound _ _ _ _ hb) _

theorem atomicUpdate_effect {n : Nat} {op : AtomicOp} {dst src : RegNum} {off : BitVec 16}
    (h : atomicUpdate n op dst off src s = .next t) : OrdinaryEffect s t := by
  rw [atomicUpdate_eq] at h
  split_ifs at h with hr ha hb
  cases h; exact .store (.draw (.draw (.refl s) _) _) (admits_bound _ _ _ _ hb) _

theorem atomicFetch_effect {n : Nat} {op : AtomicOp} {dst src : RegNum} {off : BitVec 16}
    (h : atomicFetch n op dst off src s = .next t) : OrdinaryEffect s t := by
  rw [atomicFetch_eq] at h
  split_ifs at h with hw hr ha hb
  cases h; exact .storeAndRegister (.draw (.draw (.refl s) _) _) (admits_bound _ _ _ _ hb) _ hw _

/-- A compare and exchange writes x[0] in either case, and memory where the values agree. -/
theorem compareExchange_effect {n : Nat} {dst src : RegNum} {off : BitVec 16}
    (h : compareExchange n dst off src s = .next t) : OrdinaryEffect s t := by
  by_cases hread : ∀ k ∈ [dst, src, 0], canRead s k = true
  · have reads : AfterReads s (read3State s dst src 0) := .draw (.draw (.draw (.refl s) _) _) _
    rw [compareExchange_eq n dst off src s hread] at h
    split_ifs at h with ha hb heq
    · cases h; exact .storeAndRegister reads (admits_bound _ _ _ _ hb) _ rfl _
    · cases h; exact .register reads rfl _ 1
  · push Not at hread
    obtain ⟨k, hk, hkr⟩ := hread
    obtain ⟨r, -, -, -, hfault⟩ :=
      compareExchange_unreadable n dst off src s k hk (Bool.eq_false_iff.mpr hkr)
    rw [hfault] at h
    cases h

theorem callFunction_effect {space : CallSpace} {id : BitVec 32} (h : callFunction space id s = .next t) :
    OrdinaryEffect s t := by
  rcases callFunction_cases space id s with ⟨-, e⟩ | ⟨f, -, ⟨r, -, -, -, e⟩ | ⟨-, e⟩⟩
  · rw [e] at h; cases h
  · rw [e] at h; cases h
  · rw [e] at h
    simp only at h
    split_ifs at h with hfail
    cases h; exact .call (.drawAll (.refl s) _) _

end

/-! ### The effect of every instruction -/

/-- Every instruction but a local call and EXIT has an ordinary effect: each runs one shared operation, or always faults. -/
theorem exec_effect {i : Instr} {s t : State} (h : exec i s = .next t) (hcall : ∀ off imm, i ≠ .callLocal off imm)
    (hexit : i ≠ .exit) : OrdinaryEffect s t := by
  cases i
  case add32K | sub32K | mul32K | div32K | or32K | and32K | lsh32K | rsh32K | mod32K | xor32K | arsh32K =>
    exact alu32K_effect h
  case add32X | sub32X | mul32X | div32X | or32X | and32X | lsh32X | rsh32X | mod32X | xor32X | arsh32X =>
    exact alu32X_effect h
  case add64K | sub64K | mul64K | div64K | or64K | and64K | lsh64K | rsh64K | mod64K | xor64K | arsh64K =>
    exact alu64K_effect h
  case add64X | sub64X | mul64X | div64X | or64X | and64X | lsh64X | rsh64X | mod64X | xor64X | arsh64X =>
    exact alu64X_effect h
  case neg32 => exact unary_effect (fun v => zext64 (-lo32 v)) h
  case neg64 => exact unary_effect (fun v => -v) h
  case le16 | le32 | le64 | be16 | be32 | be64 => exact unary_effect (convertOrder _ s.cfg.hostEndian _) h
  case mov32K | mov64K | ldImm64 => exact moveConst_effect h
  case mov32X => exact moveReg_effect (fun v => zext64 (lo32 v)) h
  case mov64X => exact moveReg_effect (fun v => v) h
  case ja off => cases h; exact .jump (.refl s) true (offsetSlots off)
  case jeq64K | jgt64K | jge64K | jset64K | jne64K | jsgt64K | jsge64K | jlt64K | jle64K | jslt64K | jsle64K =>
    exact jump64K_effect h
  case jeq64X | jgt64X | jge64X | jset64X | jne64X | jsgt64X | jsge64X | jlt64X | jle64X | jslt64X | jsle64X =>
    exact jump64X_effect h
  case jeq32K | jgt32K | jge32K | jset32K | jne32K | jsgt32K | jsge32K | jlt32K | jle32K | jslt32K | jsle32K =>
    exact jump32K_effect h
  case jeq32X | jgt32X | jge32X | jset32X | jne32X | jsgt32X | jsge32X | jlt32X | jle32X | jslt32X | jsle32X =>
    exact jump32X_effect h
  case callHelper | callRuntime => exact callFunction_effect h
  case callLocal off imm => exact absurd rfl (hcall off imm)
  case exit => exact absurd rfl hexit
  case ldxB | ldxH | ldxW | ldxDW => exact load_effect h
  case stB | stH | stW | stDW => exact storeImm_effect h
  case stxB | stxH | stxW | stxDW => exact storeReg_effect h
  case atomicAdd32 | atomicOr32 | atomicAnd32 | atomicXor32 | atomicAdd64 | atomicOr64 | atomicAnd64 | atomicXor64 =>
    exact atomicUpdate_effect h
  case atomicFetchAdd32 | atomicFetchOr32 | atomicFetchAnd32 | atomicFetchXor32 | atomicXchg32 | atomicFetchAdd64
      | atomicFetchOr64 | atomicFetchAnd64 | atomicFetchXor64 | atomicXchg64 =>
    exact atomicFetch_effect h
  case atomicCmpxchg32 | atomicCmpxchg64 => exact compareExchange_effect h
  case ldMapFd | ldMapFdValue | ldVarAddr | ldCodeAddr | ldMapIdx | ldMapIdxValue => exact loadPlatform_effect h
  case ldAbsW | ldAbsH | ldAbsB | ldAbsDW | ldIndW | ldIndH | ldIndB | ldIndDW | pseudoSlot => cases h

/-! ### What an ordinary effect leaves alone -/

/-- A write of another register leaves R10 as it was. -/
theorem set_fp (x : Vector Reg 11) (r : RegNum) (v : Reg) (hr : writableReg r = true) : (x.set r v)[10] = x[10] :=
  set_other x r 10 v (Ne.symm (bne_iff_ne.mp hr))

/-- The registers after a function of the runtime returns: R10 is not among those it writes or drops (R248, R250). -/
theorem afterCall_fp (u : State) (o : CallOutcome) : (afterCall u o).x[10] = u.x[10] := by
  simp [afterCall]

theorem SameRest.trans {s u t : State} (h : SameRest s u) (k : SameRest u t) : SameRest s t :=
  ⟨k.frames.trans h.frames, k.status.trans h.status, k.env.trans h.env, k.during.trans h.during, k.cfg.trans h.cfg⟩

theorem OrdinaryEffect.sameRest {s t : State} (h : OrdinaryEffect s t) : SameRest s t := by
  cases h with
  | register hu hr v n => exact hu.sameRest.trans ⟨rfl, rfl, rfl, rfl, rfl⟩
  | jump hu taken disp => exact hu.sameRest.trans ⟨rfl, rfl, rfl, rfl, rfl⟩
  | store hu ha v => exact hu.sameRest.trans ⟨rfl, rfl, rfl, rfl, rfl⟩
  | storeAndRegister hu ha v hr w => exact hu.sameRest.trans ⟨rfl, rfl, rfl, rfl, rfl⟩
  | call hu o => exact hu.sameRest.trans ⟨rfl, rfl, rfl, rfl, rfl⟩

theorem OrdinaryEffect.fp {s t : State} (h : OrdinaryEffect s t) : t.x[10] = s.x[10] := by
  cases h with
  | register hu hr v n => rw [advance_x, setReg_x, set_fp _ _ _ hr, hu.x]
  | jump hu taken disp => rw [branch_x, hu.x]
  | store hu ha v => rw [advance_x, writeValue_x, hu.x]
  | storeAndRegister hu ha v hr w => rw [advance_x, setReg_x, set_fp _ _ _ hr, writeValue_x, hu.x]
  | call hu o => rw [afterCall_fp, hu.x]

/-- Settles O36: an ordinary effect leaves the call stack and R10 alone. -/
theorem callStackAndFramePointer : Obligations.CallStackAndFramePointer := by
  intro i s t h hcall hexit
  have effect := exec_effect h hcall hexit
  exact ⟨effect.sameRest.frames, effect.fp⟩

/-! ## The parameters (R20, R33) -/

theorem callEbpf_cfg {disp : Int} {s t : State} (h : callEbpf disp s = .next t) : t.cfg = s.cfg := by
  rw [callEbpf_eq] at h
  split_ifs at h with hdepth hr
  cases h; rw [enterFunction_cfg, draw_cfg]

theorem execCallLocal_cfg {off : BitVec 16} {imm : BitVec 32} {s t : State} (h : execCallLocal off imm s = .next t) :
    t.cfg = s.cfg := by
  rw [execCallLocal] at h
  split at h
  · exact callEbpf_cfg h
  · split_ifs at h with hoff
    exact callEbpf_cfg h

theorem exitFunction_cfg {s t : State} (h : exitFunction s = .next t) : t.cfg = s.cfg := by
  rw [exitFunction_eq] at h
  split_ifs at h with hr
  split at h
  · cases h; exact draw_cfg s 0
  · cases h; rw [leaveFunction_cfg, draw_cfg]

/-- No instruction changes a parameter. -/
theorem exec_cfg {i : Instr} {s t : State} (h : exec i s = .next t) : t.cfg = s.cfg := by
  by_cases hcall : ∃ off imm, i = .callLocal off imm
  · obtain ⟨off, imm, rfl⟩ := hcall
    exact execCallLocal_cfg h
  by_cases hexit : i = .exit
  · subst hexit
    exact exitFunction_cfg h
  · exact (exec_effect h (fun off imm e => hcall ⟨off, imm, e⟩) hexit).sameRest.cfg

/-- A step that answers a next state: the run had ended and stays, or the fetched instruction ran after the environment's turn
(R376, R377). -/
theorem step_next_cases {s t : State} (h : step s = .next t) :
    ((∃ v, s.status = .ended v) ∧ t = s) ∨
      (s.status = .running ∧ ∃ i, fetch (envTurn s) = .ok i ∧ exec i (envTurn s) = .next t) := by
  simp only [step] at h
  cases hs : s.status with
  | ended v => simp only [hs] at h; cases h; exact .inl ⟨⟨v, rfl⟩, rfl⟩
  | faulted f => simp only [hs] at h; cases h
  | running =>
    simp only [hs] at h
    cases hf : fetch (envTurn s) with
    | error f => simp only [hf] at h; cases h
    | ok i => simp only [hf] at h; exact .inr ⟨rfl, i, rfl, h⟩

/-- Settles O35: neither the environment's turn nor any instruction changes a parameter. -/
theorem parametersFixed : Obligations.ParametersFixed := by
  intro s t h
  rcases step_next_cases h with ⟨-, rfl⟩ | ⟨-, i, -, hi⟩
  · rfl
  · rw [exec_cfg hi, envTurn_cfg]

end Sys2Proof.Machine

/-! Data memory (`20_memory.md`): the bytes of a stored value, the bytes that only the program changes, and the instructions that
change no byte. -/

namespace Sys2Proof.Machine

/-! ## The bytes of a stored value (R52) -/

theorem memoryImage_length (o : ByteOrder) (n : Nat) (v : Word) : (memoryImage o n v).length = n := by
  rw [← inOrder_lowBytes, inOrder_length, lowBytes_length]

theorem getElem_memoryImage (o : ByteOrder) {n i : Nat} (v : Word) (h : i < (memoryImage o n v).length) :
    (memoryImage o n v)[i] = byteOf v (if o = .little then i else n - 1 - i) := by
  cases o <;> simp [memoryImage]

/-- The byte with index `i` from the lowest address after a store: on a little-endian host the value's byte `i`, on a big-endian
one its byte `i` from the other end. -/
theorem byteAt_writeValue (s : State) (a : Nat) {n i : Nat} (v : Word) (hi : i < n) :
    byteAt (writeValue s a n v).mem (a + i) = byteOf v (if s.cfg.hostEndian = .little then i else n - 1 - i) := by
  have inside : a ≤ a + i ∧ a + i - a < (memoryImage s.cfg.hostEndian n v).length := by
    rw [memoryImage_length]
    omega
  rw [writeValue_mem, inOrder_lowBytes, byteAt_storeBytes, dif_pos inside, getElem_memoryImage, Nat.add_sub_cancel_left]

/-- Settles O50: the lowest and the highest byte of the value, at the ends that the byte order gives them. -/
theorem mixedWidthBytes : Obligations.MixedWidthBytes := by
  intro s a
  have first := byteAt_writeValue s a (n := 8) (i := 0) 0x1122334455667788 (by omega)
  have last := byteAt_writeValue s a (n := 8) (i := 7) 0x1122334455667788 (by omega)
  rw [Nat.add_zero] at first
  rw [first, last]
  cases s.cfg.hostEndian <;> decide

/-! ## Unshared bytes (R62, R67) -/

theorem isShared_eq_false_iff (c : Config) (a : Nat) :
    isShared c a = false ↔ ∀ r ∈ c.regions, r.shared = true → ¬ (r.base ≤ a ∧ a < r.base + r.size) := by
  simp [isShared, inRegion]

/-- The environment's turn leaves an unshared byte as it was, whatever move it makes. -/
theorem byteAt_envTurn (s : State) {a : Nat} (h : isShared s.cfg a = false) :
    byteAt (envTurn s).mem a = byteAt s.mem a := by
  rw [envTurn]
  split
  · rfl
  · exact byteAt_storeShared s.cfg s.mem _ a h

/-- Settles O38: the environment's turn writes shared bytes only, and none of the other fields named. -/
theorem environmentOnlyShared : Obligations.EnvironmentOnlyShared := fun s =>
  ⟨envTurn_x s, envTurn_pc s, envTurn_frames s, envTurn_cfg s, envTurn_status s,
    fun a h => byteAt_envTurn s ((isShared_eq_false_iff s.cfg a).mpr h)⟩

theorem tornByteAt_of_unshared (s : State) {a : Nat} (h : isShared s.cfg a = false) : tornByteAt s a = byteAt s.mem a := by
  rw [tornByteAt, h, if_neg Bool.false_ne_true]

/-- Byte by byte, a regular load of unshared bytes finds what memory holds (R60). -/
theorem tornBytesAt_of_unshared (s : State) (a n : Nat) (h : ∀ k, k < n → isShared s.cfg (a + k) = false) :
    tornBytesAt s a n = bytesAt s.mem a n := by
  rw [tornBytesAt_eq, bytesAt_eq]
  exact List.map_congr_left fun k hk => tornByteAt_of_unshared s (h k (List.mem_range.mp hk))

/-- Whether or not a regular load is indivisible, on unshared bytes it is the indivisible read (R60). -/
theorem loadValue_of_unshared (s : State) (a n : Nat) (h : ∀ k, k < n → isShared s.cfg (a + k) = false) :
    loadValue s a n = readValue s a n := by
  rw [loadValue]
  split
  · rfl
  · rw [tornBytesAt_of_unshared s a n h, readValue]

/-- Settles O39; the bound on the width is not needed. -/
theorem privateLoads : Obligations.PrivateLoads := fun s a n _ h => loadValue_of_unshared s a n h

/-! ## A store and a load of the same bytes (R54, R62) -/

/-- What R57 says of a load gives the check of the access its answer. -/
theorem admits_read_of_admitted {c : Config} {a : Word} {n : Nat} (h : Admitted c a n Region.readable) :
    admits c a.toNat n .read = true := by
  obtain ⟨hbound, r, hr, hreadable, hlow, hhigh⟩ := h
  simp only [admits, Bool.and_eq_true, decide_eq_true_eq, List.any_eq_true]
  exact ⟨hbound, r, hr, by simp [inRegion, hlow, hhigh], hreadable⟩

theorem canRead_of_written {s : State} {r : RegNum} (h : s.x[r].written = true) : canRead s r = true :=
  (canRead_iff s r).mpr (.inl h)

/-- A store of a register that answers a next state: the access was aligned, and the bytes are written (R262, R263). -/
theorem storeReg_next {n : Nat} {base src : RegNum} {off : BitVec 16} {s t : State} (hbase : s.x[base].written = true)
    (hsrc : s.x[src].written = true) (h : storeReg n base off src s = .next t) :
    aligned s.cfg (effAddr s.x[base].value off).toNat n .write = true ∧
      t = advance (writeValue s (effAddr s.x[base].value off).toNat n s.x[src].value) 1 := by
  rw [storeReg_eq, draw_of_written s base hbase, draw_of_written s src hsrc] at h
  split_ifs at h with hread haligned hadmitted
  cases h
  exact ⟨haligned, rfl⟩

/-- A load that meets none of its faults (R261, R263). -/
theorem load_next {n : Nat} {dst base : RegNum} {off : BitVec 16} {s : State} (hdst : writableReg dst = true)
    (hbase : s.x[base].written = true) (haligned : aligned s.cfg (effAddr s.x[base].value off).toNat n .read = true)
    (hadmitted : admits s.cfg (effAddr s.x[base].value off).toNat n .read = true) :
    load n dst base off s =
      .next (advance (setReg s dst (loadValue s (effAddr s.x[base].value off).toNat n)) 1) := by
  rw [load_eq, draw_of_written s base hbase, if_pos hdst, if_pos (canRead_of_written hbase), if_pos haligned,
    if_pos hadmitted]

/-- The operations that the instructions of each width share: what was stored in unshared bytes is what a load
finds there, cut to the width. -/
theorem load_storeReg {n : Nat} {dst src base : RegNum} {off : BitVec 16} {s t : State}
    (hbase : s.x[base].written = true) (hsrc : s.x[src].written = true) (hdst : writableReg dst = true)
    (hunshared : ∀ k, k < n → isShared s.cfg ((effAddr s.x[base].value off).toNat + k) = false)
    (hadmitted : Admitted s.cfg (effAddr s.x[base].value off) n Region.readable)
    (h : storeReg n base off src s = .next t) :
    ∃ u, load n dst base off t = .next u ∧ u.x[dst] = Reg.of (truncTo n s.x[src].value) := by
  obtain ⟨haligned, rfl⟩ := storeReg_next hbase hsrc h
  refine ⟨_, load_next hdst hbase haligned (admits_read_of_admitted hadmitted), ?_⟩
  rw [advance_x, setReg_x, set_self]
  exact congrArg Reg.of ((loadValue_of_unshared (advance (writeValue s _ n _) 1) _ n hunshared).trans
    (readValue_writeValue s _ n _))

theorem truncTo_eq_ofNat {n : Nat} (hn : n ≤ 8) (v : Word) : truncTo n v = BitVec.ofNat 64 (v.toNat % 2 ^ (8 * n)) := by
  rw [← toNat_truncTo n v hn, BitVec.ofNat_toNat, BitVec.setWidth_eq]

/-- Settles O43: each pair of instructions is the store and the load of one width. -/
theorem storeThenLoad : Obligations.StoreThenLoad := by
  intro s t n mkS mkL dst src base off hwidth hbase hsrc hdst hunshared hadmitted h
  have shared : n ≤ 8 ∧ storeReg n base off src s = .next t ∧ exec (mkL dst base off) t = load n dst base off t := by
    rcases hwidth with e | e | e | e <;> (cases e; exact ⟨by decide, h, rfl⟩)
  obtain ⟨hn, hstore, hload⟩ := shared
  rw [hload, ← truncTo_eq_ofNat hn]
  exact load_storeReg hbase hsrc hdst hunshared hadmitted hstore

/-! ## The instructions that leave data memory alone (R68) -/

/-- An outcome that, where it is a next state, has the data memory of `s`. -/
def KeepsMemory (s : State) (o : Host.Outcome State Fault Refusal) : Prop := ∀ t, o = .next t → t.mem = s.mem

theorem keepsMemory_next {s t : State} (h : t.mem = s.mem) : KeepsMemory s (.next t) := by
  rintro _ ⟨⟩
  exact h

theorem keepsMemory_fault (s : State) (f : Fault) : KeepsMemory s (.fault f) := by
  rintro t ⟨⟩

/-- An outcome behind a check: where the check fails, it is a fault. -/
theorem keepsMemory_check {s : State} {p : Prop} [Decidable p] {o : Host.Outcome State Fault Refusal} {f : Fault}
    (h : KeepsMemory s o) : KeepsMemory s (if p then o else .fault f) := by
  split
  · exact h
  · exact keepsMemory_fault s f

section
variable (s : State)

theorem alu32K_keepsMemory (op : AluOp) (dst : RegNum) (imm : BitVec 32) : KeepsMemory s (alu32K op dst imm s) := by
  rw [alu32K_eq]
  refine keepsMemory_check (keepsMemory_check ?_)
  split
  · exact keepsMemory_next (draw_mem s _)
  · exact keepsMemory_fault s _

theorem alu32X_keepsMemory (op : AluOp) (dst src : RegNum) : KeepsMemory s (alu32X op dst src s) := by
  rw [alu32X_eq]
  refine keepsMemory_check (keepsMemory_check ?_)
  split
  · exact keepsMemory_next (by rw [advance_mem, setReg_mem, draw_mem, draw_mem])
  · exact keepsMemory_fault s _

theorem alu64K_keepsMemory (op : AluOp) (dst : RegNum) (imm : BitVec 32) : KeepsMemory s (alu64K op dst imm s) := by
  rw [alu64K_eq]
  refine keepsMemory_check (keepsMemory_check ?_)
  split
  · exact keepsMemory_next (draw_mem s _)
  · exact keepsMemory_fault s _

theorem alu64X_keepsMemory (op : AluOp) (dst src : RegNum) : KeepsMemory s (alu64X op dst src s) := by
  rw [alu64X_eq]
  refine keepsMemory_check (keepsMemory_check ?_)
  split
  · exact keepsMemory_next (by rw [advance_mem, setReg_mem, draw_mem, draw_mem])
  · exact keepsMemory_fault s _

theorem unary_keepsMemory (f : Word → Word) (dst : RegNum) : KeepsMemory s (unary f dst s) := by
  rw [unary_eq]
  exact keepsMemory_check (keepsMemory_check (keepsMemory_next (draw_mem s dst)))

theorem moveConst_keepsMemory (n : Nat) (dst : RegNum) (v : Word) : KeepsMemory s (moveConst n dst v s) := by
  rw [moveConst_eq]
  exact keepsMemory_check (keepsMemory_next rfl)

theorem moveReg_keepsMemory (f : Word → Word) (dst src : RegNum) : KeepsMemory s (moveReg f dst src s) := by
  rw [moveReg_eq]
  exact keepsMemory_check (keepsMemory_check (keepsMemory_next (draw_mem s src)))

theorem loadPlatform_keepsMemory (dst : RegNum) (v : Option Word) : KeepsMemory s (loadPlatform dst v s) := by
  cases v with
  | none => exact keepsMemory_fault s _
  | some w => exact moveConst_keepsMemory s 2 dst w

theorem jump64K_keepsMemory (c : Cond) (dst : RegNum) (imm : BitVec 32) (off : BitVec 16) :
    KeepsMemory s (jump64K c dst imm off s) := by
  rw [jump64K_eq]
  exact keepsMemory_check (keepsMemory_next (draw_mem s dst))

theorem jump64X_keepsMemory (c : Cond) (dst src : RegNum) (off : BitVec 16) :
    KeepsMemory s (jump64X c dst src off s) := by
  rw [jump64X_eq]
  exact keepsMemory_check (keepsMemory_next (by rw [branch_mem, draw_mem, draw_mem]))

theorem jump32K_keepsMemory (c : Cond) (dst : RegNum) (imm : BitVec 32) (off : BitVec 16) :
    KeepsMemory s (jump32K c dst imm off s) := by
  rw [jump32K_eq]
  exact keepsMemory_check (keepsMemory_next (draw_mem s dst))

theorem jump32X_keepsMemory (c : Cond) (dst src : RegNum) (off : BitVec 16) :
    KeepsMemory s (jump32X c dst src off s) := by
  rw [jump32X_eq]
  exact keepsMemory_check (keepsMemory_next (by rw [branch_mem, draw_mem, draw_mem]))

theorem load_keepsMemory (n : Nat) (dst src : RegNum) (off : BitVec 16) : KeepsMemory s (load n dst src off s) := by
  rw [load_eq]
  exact keepsMemory_check (keepsMemory_check (keepsMemory_check (keepsMemory_check (keepsMemory_next (draw_mem s src)))))

theorem callEbpf_keepsMemory (disp : Int) : KeepsMemory s (callEbpf disp s) := by
  rw [callEbpf_eq]
  exact keepsMemory_check (keepsMemory_check (keepsMemory_next (by rw [enterFunction_mem, draw_mem])))

/-- A local call checks `offset` first where the displacement stands in `imm` (R251). -/
theorem execCallLocal_keepsMemory (off : BitVec 16) (imm : BitVec 32) : KeepsMemory s (execCallLocal off imm s) := by
  rw [execCallLocal]
  split
  · exact callEbpf_keepsMemory s _
  · exact keepsMemory_check (callEbpf_keepsMemory s _)

/-- EXIT keeps memory both at the end of the run and on the return to a caller (R253). -/
theorem exitFunction_keepsMemory : KeepsMemory s (exitFunction s) := by
  rw [exitFunction_eq]
  refine keepsMemory_check ?_
  split
  · exact keepsMemory_next (draw_mem s 0)
  · exact keepsMemory_next (by rw [leaveFunction_mem, draw_mem])

end

/-- The instruction class (R87) of the slot that the encoder writes is that of the opcode byte given. -/
theorem class_basicSlot (opcode : BitVec 8) (dst src : BitVec 4) (off : BitVec 16) (imm : BitVec 32) :
    (Fields.ofSlot ((basicSlot opcode dst src off imm).headD 0)).opcode.extractLsb' 0 3 = opcode.extractLsb' 0 3 := by
  rw [basicSlot, List.headD_cons, Laws.ofSlot_toSlot]

/-- Every instruction keeps data memory, but for the classes BPF_ST (2) and BPF_STX (3) and the calls of the
runtime's functions. -/
theorem exec_keepsMemory (i : Instr) (s : State) (hcall : ∀ id, i ≠ .callHelper id ∧ i ≠ .callRuntime id)
    (hst : (Fields.ofSlot ((encode i).headD 0)).opcode.extractLsb' 0 3 ≠ 2)
    (hstx : (Fields.ofSlot ((encode i).headD 0)).opcode.extractLsb' 0 3 ≠ 3) : KeepsMemory s (exec i s) := by
  cases i
  case add32K | sub32K | mul32K | div32K | or32K | and32K | lsh32K | rsh32K | mod32K | xor32K | arsh32K =>
    exact alu32K_keepsMemory s _ _ _
  case add32X | sub32X | mul32X | div32X | or32X | and32X | lsh32X | rsh32X | mod32X | xor32X | arsh32X =>
    exact alu32X_keepsMemory s _ _ _
  case add64K | sub64K | mul64K | div64K | or64K | and64K | lsh64K | rsh64K | mod64K | xor64K | arsh64K =>
    exact alu64K_keepsMemory s _ _ _
  case add64X | sub64X | mul64X | div64X | or64X | and64X | lsh64X | rsh64X | mod64X | xor64X | arsh64X =>
    exact alu64X_keepsMemory s _ _ _
  case neg32 => exact unary_keepsMemory s (fun v => zext64 (-lo32 v)) _
  case neg64 => exact unary_keepsMemory s (fun v => -v) _
  case le16 | le32 | le64 | be16 | be32 | be64 => exact unary_keepsMemory s (convertOrder _ s.cfg.hostEndian _) _
  case mov32K | mov64K | ldImm64 => exact moveConst_keepsMemory s _ _ _
  case mov32X => exact moveReg_keepsMemory s (fun v => zext64 (lo32 v)) _ _
  case mov64X => exact moveReg_keepsMemory s (fun v => v) _ _
  case ja => exact keepsMemory_next rfl
  case jeq64K | jgt64K | jge64K | jset64K | jne64K | jsgt64K | jsge64K | jlt64K | jle64K | jslt64K | jsle64K =>
    exact jump64K_keepsMemory s _ _ _ _
  case jeq64X | jgt64X | jge64X | jset64X | jne64X | jsgt64X | jsge64X | jlt64X | jle64X | jslt64X | jsle64X =>
    exact jump64X_keepsMemory s _ _ _ _
  case jeq32K | jgt32K | jge32K | jset32K | jne32K | jsgt32K | jsge32K | jlt32K | jle32K | jslt32K | jsle32K =>
    exact jump32K_keepsMemory s _ _ _ _
  case jeq32X | jgt32X | jge32X | jset32X | jne32X | jsgt32X | jsge32X | jlt32X | jle32X | jslt32X | jsle32X =>
    exact jump32X_keepsMemory s _ _ _ _
  case callHelper id => exact absurd rfl (hcall id).1
  case callRuntime id => exact absurd rfl (hcall id).2
  case callLocal off imm => exact execCallLocal_keepsMemory s off imm
  case exit => exact exitFunction_keepsMemory s
  case ldxB | ldxH | ldxW | ldxDW => exact load_keepsMemory s _ _ _ _
  case stB | stH | stW | stDW => exact absurd (class_basicSlot _ _ _ _ _) hst
  case stxB | stxH | stxW | stxDW | atomicAdd32 | atomicFetchAdd32 | atomicOr32 | atomicFetchOr32 | atomicAnd32
      | atomicFetchAnd32 | atomicXor32 | atomicFetchXor32 | atomicXchg32 | atomicCmpxchg32 | atomicAdd64
      | atomicFetchAdd64 | atomicOr64 | atomicFetchOr64 | atomicAnd64 | atomicFetchAnd64 | atomicXor64
      | atomicFetchXor64 | atomicXchg64 | atomicCmpxchg64 =>
    exact absurd (class_basicSlot _ _ _ _ _) hstx
  case ldMapFd | ldMapFdValue | ldVarAddr | ldCodeAddr | ldMapIdx | ldMapIdxValue => exact loadPlatform_keepsMemory s _ _
  case ldAbsW | ldAbsH | ldAbsB | ldAbsDW | ldIndW | ldIndH | ldIndB | ldIndDW | pseudoSlot => exact keepsMemory_fault s _

/-- Settles O37: memory is the same list of bytes, so each byte is. -/
theorem memoryInstructions : Obligations.MemoryInstructions := by
  intro i s t h hcall hclass
  have hmem : t.mem = s.mem := exec_keepsMemory i s hcall hclass.1 hclass.2 t h
  exact ⟨hmem, fun a => by rw [hmem]⟩

end Sys2Proof.Machine

/-! Encoding (`30_encoding.md`): when each format of R98 decodes and to what, the round trips between the decoder
and the encoder, the opcode map, the pseudo slot and the byte image. -/

namespace Sys2Proof.Machine

/-! ## What the checks of the formats accept (R83, R84, R94) -/

/-- A computation that can fail answers just when its first part does and the rest does on that answer. -/
theorem except_bind_eq_ok {α β : Type} {x : Except IllegalReason α} {k : α → Except IllegalReason β} {b : β} :
    (x >>= k) = .ok b ↔ ∃ a, x = .ok a ∧ k a = .ok b := by
  cases x with
  | error e => simp [Bind.bind, Except.bind]
  | ok a => simp [Bind.bind, Except.bind]

theorem toNat_regField (r : RegNum) : (regField r).toNat = r.val := by
  rw [regField, BitVec.toNat_ofNat]
  omega

theorem regOf_eq_ok {n : BitVec 4} {r : RegNum} : regOf n = .ok r ↔ n = regField r := by
  constructor
  · intro h
    rw [regOf] at h
    split at h
    · cases h
      exact BitVec.eq_of_toNat_eq (toNat_regField ⟨n.toNat, ‹_›⟩).symm
    · cases h
  · rintro rfl
    rw [regOf, dif_pos (by rw [toNat_regField]; exact r.isLt)]
    exact congrArg Except.ok (Fin.ext (toNat_regField r))

theorem writtenRegOf_eq_ok {n : BitVec 4} {r : RegNum} :
    writtenRegOf n = .ok r ↔ writableReg r = true ∧ n = regField r := by
  rw [writtenRegOf, except_bind_eq_ok]
  constructor
  · rintro ⟨q, hq, h⟩
    split at h
    · cases h
      exact ⟨‹_›, regOf_eq_ok.1 hq⟩
    · cases h
  · rintro ⟨hw, hn⟩
    exact ⟨r, regOf_eq_ok.2 hn, if_pos hw⟩

theorem atomicSrcOf_eq_ok {written : Bool} {n : BitVec 4} {r : RegNum} :
    atomicSrcOf written n = .ok r ↔ (!written || writableReg r) = true ∧ n = regField r := by
  cases written with
  | false => simp [atomicSrcOf, regOf_eq_ok]
  | true => simp [atomicSrcOf, writtenRegOf_eq_ok]

theorem requireUnused_eq_ok {ok : Bool} {u : Unit} : requireUnused ok = .ok u ↔ ok = true := by
  cases ok <;> simp [requireUnused]

/-- The second slot of a wide instruction is the one whose only field that is not zero is `imm`. -/
theorem nextImmOf_eq_ok {next : Option Slot} {n : BitVec 32} :
    nextImmOf next = .ok n ↔ next = some (Fields.toSlot ⟨0, 0, 0, 0, n⟩) := by
  cases next with
  | none => simp [nextImmOf]
  | some p =>
    have low : Fields.toSlot ⟨0, 0, 0, 0, n⟩ = n ++ 0#32 := by
      apply BitVec.eq_of_toNat_eq
      simp only [Fields.toSlot, BitVec.toNat_append]
      simp [← Nat.shiftLeft_add]
    rw [nextImmOf, Option.some.injEq, low]
    constructor
    · intro h
      split at h
      · cases h
        have lowZero : p.extractLsb' 0 32 = 0#32 := ‹_›
        rw [← lowZero]
        exact (BitVec.extractLsb'_append_extractLsb' (w := 32) (len := 32)).symm
      · cases h
    · rintro rfl
      have lowZero : (n ++ 0#32).extractLsb' 0 32 = 0 := BitVec.extractLsb'_append_eq_right
      have high : (n ++ 0#32).extractLsb' 32 32 = n := BitVec.extractLsb'_append_eq_left
      rw [if_pos lowZero, high]

theorem unusedNextImm_eq_ok {n : BitVec 32} {i j : Instr} : unusedNextImm n i = .ok j ↔ n = 0 ∧ i = j := by
  rw [unusedNextImm]
  split_ifs
  all_goals simp_all

/-! ## When each format decodes, and to what (R98) -/

section
variable {op : BitVec 8} {dst src : BitVec 4} {off : BitVec 16} {imm : BitVec 32} {next : Option Slot} {i : Instr}

theorem rowAluK_eq_ok {mk : RegNum → BitVec 32 → Instr} : rowAluK mk ⟨op, dst, src, off, imm⟩ next = .ok i ↔
    ∃ d, writableReg d = true ∧ dst = regField d ∧ src = 0 ∧ off = 0 ∧ mk d imm = i := by
  simp [rowAluK, except_bind_eq_ok, writtenRegOf_eq_ok, requireUnused_eq_ok, and_assoc]

theorem rowAluX_eq_ok {mk : RegNum → RegNum → Instr} : rowAluX mk ⟨op, dst, src, off, imm⟩ next = .ok i ↔
    ∃ d s, writableReg d = true ∧ dst = regField d ∧ src = regField s ∧ off = 0 ∧ imm = 0 ∧ mk d s = i := by
  simp [rowAluX, except_bind_eq_ok, writtenRegOf_eq_ok, regOf_eq_ok, requireUnused_eq_ok, and_assoc]

theorem rowAluUn_eq_ok {mk : RegNum → Instr} : rowAluUn mk ⟨op, dst, src, off, imm⟩ next = .ok i ↔
    ∃ d, writableReg d = true ∧ dst = regField d ∧ src = 0 ∧ off = 0 ∧ imm = 0 ∧ mk d = i := by
  simp [rowAluUn, except_bind_eq_ok, writtenRegOf_eq_ok, requireUnused_eq_ok, and_assoc]

theorem rowSwapOf_eq_ok {mk : RegNum → Instr} : rowSwapOf mk ⟨op, dst, src, off, imm⟩ next = .ok i ↔
    ∃ d, writableReg d = true ∧ dst = regField d ∧ src = 0 ∧ off = 0 ∧ mk d = i := by
  simp [rowSwapOf, except_bind_eq_ok, writtenRegOf_eq_ok, requireUnused_eq_ok, and_assoc]

theorem rowByteSwap_eq_ok {mk16 mk32 mk64 : RegNum → Instr} :
    rowByteSwap mk16 mk32 mk64 ⟨op, dst, src, off, imm⟩ next = .ok i ↔
      ∃ mk, (imm = 16 ∧ mk = mk16 ∨ imm = 32 ∧ mk = mk32 ∨ imm = 64 ∧ mk = mk64) ∧
        ∃ d, writableReg d = true ∧ dst = regField d ∧ src = 0 ∧ off = 0 ∧ mk d = i := by
  rw [rowByteSwap]
  split_ifs with h16 h32 h64
  all_goals simp_all [rowSwapOf_eq_ok]

theorem rowJump_eq_ok : rowJump ⟨op, dst, src, off, imm⟩ next = .ok i ↔
    dst = 0 ∧ src = 0 ∧ imm = 0 ∧ .ja off = i := by
  simp [rowJump, except_bind_eq_ok, requireUnused_eq_ok, and_assoc]

theorem rowJccK_eq_ok {mk : RegNum → BitVec 32 → BitVec 16 → Instr} :
    rowJccK mk ⟨op, dst, src, off, imm⟩ next = .ok i ↔ ∃ d, dst = regField d ∧ src = 0 ∧ mk d imm off = i := by
  simp [rowJccK, except_bind_eq_ok, regOf_eq_ok, requireUnused_eq_ok]

theorem rowJccX_eq_ok {mk : RegNum → RegNum → BitVec 16 → Instr} :
    rowJccX mk ⟨op, dst, src, off, imm⟩ next = .ok i ↔
      ∃ d s, dst = regField d ∧ src = regField s ∧ imm = 0 ∧ mk d s off = i := by
  simp [rowJccX, except_bind_eq_ok, regOf_eq_ok, requireUnused_eq_ok]

theorem rowCall_eq_ok : rowCall ⟨op, dst, src, off, imm⟩ next = .ok i ↔
    src = 0 ∧ dst = 0 ∧ off = 0 ∧ .callHelper imm = i ∨
    src = 1 ∧ dst = 0 ∧ .callLocal off imm = i ∨
    src = 2 ∧ dst = 0 ∧ off = 0 ∧ .callRuntime imm = i := by
  rw [rowCall]
  split_ifs with h0 h1 h2
  all_goals simp_all [except_bind_eq_ok, requireUnused_eq_ok, and_assoc]

theorem rowExit_eq_ok : rowExit ⟨op, dst, src, off, imm⟩ next = .ok i ↔
    dst = 0 ∧ src = 0 ∧ off = 0 ∧ imm = 0 ∧ .exit = i := by
  simp [rowExit, except_bind_eq_ok, requireUnused_eq_ok, and_assoc]

theorem rowLdx_eq_ok {mk : RegNum → RegNum → BitVec 16 → Instr} :
    rowLdx mk ⟨op, dst, src, off, imm⟩ next = .ok i ↔
      ∃ d s, writableReg d = true ∧ dst = regField d ∧ src = regField s ∧ imm = 0 ∧ mk d s off = i := by
  simp [rowLdx, except_bind_eq_ok, writtenRegOf_eq_ok, regOf_eq_ok, requireUnused_eq_ok, and_assoc]

theorem rowSt_eq_ok {mk : RegNum → BitVec 16 → BitVec 32 → Instr} :
    rowSt mk ⟨op, dst, src, off, imm⟩ next = .ok i ↔ ∃ d, dst = regField d ∧ src = 0 ∧ mk d off imm = i := by
  simp [rowSt, except_bind_eq_ok, regOf_eq_ok, requireUnused_eq_ok]

theorem rowStx_eq_ok {mk : RegNum → BitVec 16 → RegNum → Instr} :
    rowStx mk ⟨op, dst, src, off, imm⟩ next = .ok i ↔
      ∃ d s, dst = regField d ∧ src = regField s ∧ imm = 0 ∧ mk d off s = i := by
  simp [rowStx, except_bind_eq_ok, regOf_eq_ok, requireUnused_eq_ok]

theorem rowAtomic_eq_ok {forms : List (BitVec 32 × Bool × (RegNum → BitVec 16 → RegNum → Instr))} :
    rowAtomic forms ⟨op, dst, src, off, imm⟩ next = .ok i ↔
      ∃ writesSrc mk, forms.lookup imm = some (writesSrc, mk) ∧
        ∃ d s, dst = regField d ∧ (!writesSrc || writableReg s) = true ∧ src = regField s ∧ mk d off s = i := by
  simp only [rowAtomic]
  cases h : forms.lookup imm with
  | none => simp
  | some form =>
    obtain ⟨writesSrc, mk⟩ := form
    simp [except_bind_eq_ok, regOf_eq_ok, atomicSrcOf_eq_ok, and_assoc]

theorem rowImm64_eq_ok : rowImm64 ⟨op, dst, src, off, imm⟩ next = .ok i ↔
    ∃ d n, writableReg d = true ∧ dst = regField d ∧ off = 0 ∧ next = some (Fields.toSlot ⟨0, 0, 0, 0, n⟩) ∧
      (src = 0 ∧ .ldImm64 d imm n = i ∨ src = 1 ∧ n = 0 ∧ .ldMapFd d imm = i ∨
        src = 2 ∧ .ldMapFdValue d imm n = i ∨ src = 3 ∧ n = 0 ∧ .ldVarAddr d imm = i ∨
        src = 4 ∧ n = 0 ∧ .ldCodeAddr d imm = i ∨ src = 5 ∧ n = 0 ∧ .ldMapIdx d imm = i ∨
        src = 6 ∧ .ldMapIdxValue d imm n = i) := by
  by_cases outside : 6 < src.toNat
  · have h : src ≠ 0 ∧ src ≠ 1 ∧ src ≠ 2 ∧ src ≠ 3 ∧ src ≠ 4 ∧ src ≠ 5 ∧ src ≠ 6 := by bv_omega
    simp_all [rowImm64]
  · obtain rfl | rfl | rfl | rfl | rfl | rfl | rfl :
        src = 0 ∨ src = 1 ∨ src = 2 ∨ src = 3 ∨ src = 4 ∨ src = 5 ∨ src = 6 := by bv_omega
    all_goals simp [rowImm64, except_bind_eq_ok, writtenRegOf_eq_ok, requireUnused_eq_ok, nextImmOf_eq_ok,
      unusedNextImm_eq_ok, and_assoc]

theorem rowLegacy_eq_ok {mk : BitVec 4 → BitVec 4 → BitVec 16 → BitVec 32 → Instr} :
    rowLegacy mk ⟨op, dst, src, off, imm⟩ next = .ok i ↔ mk dst src off imm = i := by
  simp [rowLegacy]

theorem rowPseudo_eq_ok : rowPseudo ⟨op, dst, src, off, imm⟩ next = .ok i ↔
    dst = 0 ∧ src = 0 ∧ off = 0 ∧ .pseudoSlot imm = i := by
  rw [rowPseudo]
  split_ifs with h
  all_goals simp_all

end

/-! ## A slot that decodes is the encoding of its instruction (R83, R94) -/

/-- A row reads nothing but encodings: what it decodes a slot to is well-formed and encodes to that slot, and to the slot
after it where the instruction is wide. -/
def RowEncodes (op : BitVec 8) (row : RowDecoder) : Prop :=
  ∀ dst src off imm next i, row ⟨op, dst, src, off, imm⟩ next = .ok i →
    i.wf = true ∧ encode i = Fields.toSlot ⟨op, dst, src, off, imm⟩ :: (if i.slots = 2 then next.toList else [])

/-- A basic instruction as its rule gives it: the fields of its one slot, and where it is legal. -/
def EncodesAs (i : Instr) (f : Fields) (legal : Bool) : Prop :=
  i.wf = legal ∧ encode i = [f.toSlot]

/-- A basic instruction occupies one slot, so the slot after it does not matter. -/
theorem EncodesAs.reads {i : Instr} {f : Fields} {legal : Bool} (h : EncodesAs i f legal) (hlegal : legal = true)
    (next : Option Slot) : i.wf = true ∧ encode i = f.toSlot :: (if i.slots = 2 then next.toList else []) := by
  obtain ⟨hwf, hencode⟩ := h
  have one : i.slots = 1 := by rw [Instr.slots, hencode, List.length_singleton]
  refine ⟨hwf.trans hlegal, ?_⟩
  rw [hencode, one, if_neg (by decide)]

section
variable {op : BitVec 8}

theorem rowAluK_encodes {mk : RegNum → BitVec 32 → Instr}
    (h : ∀ d imm, EncodesAs (mk d imm) ⟨op, regField d, 0, 0, imm⟩ (writableReg d)) : RowEncodes op (rowAluK mk) := by
  intro dst src off imm next i hi
  obtain ⟨d, hd, rfl, rfl, rfl, rfl⟩ := rowAluK_eq_ok.1 hi
  exact (h d imm).reads hd next

theorem rowAluX_encodes {mk : RegNum → RegNum → Instr}
    (h : ∀ d s, EncodesAs (mk d s) ⟨op, regField d, regField s, 0, 0⟩ (writableReg d)) : RowEncodes op (rowAluX mk) := by
  intro dst src off imm next i hi
  obtain ⟨d, s, hd, rfl, rfl, rfl, rfl, rfl⟩ := rowAluX_eq_ok.1 hi
  exact (h d s).reads hd next

theorem rowAluUn_encodes {mk : RegNum → Instr}
    (h : ∀ d, EncodesAs (mk d) ⟨op, regField d, 0, 0, 0⟩ (writableReg d)) : RowEncodes op (rowAluUn mk) := by
  intro dst src off imm next i hi
  obtain ⟨d, hd, rfl, rfl, rfl, rfl, rfl⟩ := rowAluUn_eq_ok.1 hi
  exact (h d).reads hd next

theorem rowByteSwap_encodes {mk16 mk32 mk64 : RegNum → Instr}
    (h16 : ∀ d, EncodesAs (mk16 d) ⟨op, regField d, 0, 0, 16⟩ (writableReg d))
    (h32 : ∀ d, EncodesAs (mk32 d) ⟨op, regField d, 0, 0, 32⟩ (writableReg d))
    (h64 : ∀ d, EncodesAs (mk64 d) ⟨op, regField d, 0, 0, 64⟩ (writableReg d)) :
    RowEncodes op (rowByteSwap mk16 mk32 mk64) := by
  intro dst src off imm next i hi
  obtain ⟨mk, hmk, d, hd, rfl, rfl, rfl, rfl⟩ := rowByteSwap_eq_ok.1 hi
  obtain ⟨rfl, rfl⟩ | ⟨rfl, rfl⟩ | ⟨rfl, rfl⟩ := hmk
  · exact (h16 d).reads hd next
  · exact (h32 d).reads hd next
  · exact (h64 d).reads hd next

theorem rowJump_encodes : RowEncodes 0x05 rowJump := by
  intro dst src off imm next i hi
  obtain ⟨rfl, rfl, rfl, rfl⟩ := rowJump_eq_ok.1 hi
  exact ⟨rfl, rfl⟩

theorem rowJccK_encodes {mk : RegNum → BitVec 32 → BitVec 16 → Instr}
    (h : ∀ d imm off, EncodesAs (mk d imm off) ⟨op, regField d, 0, off, imm⟩ true) : RowEncodes op (rowJccK mk) := by
  intro dst src off imm next i hi
  obtain ⟨d, rfl, rfl, rfl⟩ := rowJccK_eq_ok.1 hi
  exact (h d imm off).reads rfl next

theorem rowJccX_encodes {mk : RegNum → RegNum → BitVec 16 → Instr}
    (h : ∀ d s off, EncodesAs (mk d s off) ⟨op, regField d, regField s, off, 0⟩ true) : RowEncodes op (rowJccX mk) := by
  intro dst src off imm next i hi
  obtain ⟨d, s, rfl, rfl, rfl, rfl⟩ := rowJccX_eq_ok.1 hi
  exact (h d s off).reads rfl next

theorem rowCall_encodes : RowEncodes 0x85 rowCall := by
  intro dst src off imm next i hi
  obtain ⟨rfl, rfl, rfl, rfl⟩ | ⟨rfl, rfl, rfl⟩ | ⟨rfl, rfl, rfl, rfl⟩ := rowCall_eq_ok.1 hi
  all_goals exact ⟨rfl, rfl⟩

theorem rowExit_encodes : RowEncodes 0x95 rowExit := by
  intro dst src off imm next i hi
  obtain ⟨rfl, rfl, rfl, rfl, rfl⟩ := rowExit_eq_ok.1 hi
  exact ⟨rfl, rfl⟩

theorem rowLdx_encodes {mk : RegNum → RegNum → BitVec 16 → Instr}
    (h : ∀ d s off, EncodesAs (mk d s off) ⟨op, regField d, regField s, off, 0⟩ (writableReg d)) :
    RowEncodes op (rowLdx mk) := by
  intro dst src off imm next i hi
  obtain ⟨d, s, hd, rfl, rfl, rfl, rfl⟩ := rowLdx_eq_ok.1 hi
  exact (h d s off).reads hd next

theorem rowSt_encodes {mk : RegNum → BitVec 16 → BitVec 32 → Instr}
    (h : ∀ d off imm, EncodesAs (mk d off imm) ⟨op, regField d, 0, off, imm⟩ true) : RowEncodes op (rowSt mk) := by
  intro dst src off imm next i hi
  obtain ⟨d, rfl, rfl, rfl⟩ := rowSt_eq_ok.1 hi
  exact (h d off imm).reads rfl next

theorem rowStx_encodes {mk : RegNum → BitVec 16 → RegNum → Instr}
    (h : ∀ d off s, EncodesAs (mk d off s) ⟨op, regField d, regField s, off, 0⟩ true) : RowEncodes op (rowStx mk) := by
  intro dst src off imm next i hi
  obtain ⟨d, s, rfl, rfl, rfl, rfl⟩ := rowStx_eq_ok.1 hi
  exact (h d off s).reads rfl next

/-- The pair found under a key stands in the list. -/
theorem mem_of_lookup_eq_some {α β : Type} [BEq α] [LawfulBEq α] {k : α} {v : β} {l : List (α × β)}
    (h : l.lookup k = some v) : (k, v) ∈ l := by
  obtain ⟨before, after, rfl, -⟩ := List.lookup_eq_some_iff.1 h
  exact List.mem_append_right before List.mem_cons_self

theorem rowAtomic_encodes {forms : List (BitVec 32 × Bool × (RegNum → BitVec 16 → RegNum → Instr))}
    (h : ∀ form ∈ forms, ∀ d off s, EncodesAs (form.2.2 d off s) ⟨op, regField d, regField s, off, form.1⟩
      (!form.2.1 || writableReg s)) : RowEncodes op (rowAtomic forms) := by
  intro dst src off imm next i hi
  obtain ⟨writesSrc, mk, hform, d, s, rfl, hs, rfl, rfl⟩ := rowAtomic_eq_ok.1 hi
  exact (h _ (mem_of_lookup_eq_some hform) d off s).reads hs next

theorem rowImm64_encodes : RowEncodes 0x18 rowImm64 := by
  intro dst src off imm next i hi
  obtain ⟨d, n, hd, rfl, rfl, rfl, form⟩ := rowImm64_eq_ok.1 hi
  obtain ⟨rfl, rfl⟩ | ⟨rfl, rfl, rfl⟩ | ⟨rfl, rfl⟩ | ⟨rfl, rfl, rfl⟩ | ⟨rfl, rfl, rfl⟩ | ⟨rfl, rfl, rfl⟩ | ⟨rfl, rfl⟩ := form
  all_goals exact ⟨hd, rfl⟩

theorem rowLegacy_encodes {mk : BitVec 4 → BitVec 4 → BitVec 16 → BitVec 32 → Instr}
    (h : ∀ dst src off imm, EncodesAs (mk dst src off imm) ⟨op, dst, src, off, imm⟩ true) :
    RowEncodes op (rowLegacy mk) := by
  intro dst src off imm next i hi
  obtain rfl := (rowLegacy_eq_ok (next := next)).1 hi
  exact (h dst src off imm).reads rfl next

theorem rowPseudo_encodes : RowEncodes 0x00 rowPseudo := by
  intro dst src off imm next i hi
  obtain ⟨rfl, rfl, rfl, rfl⟩ := rowPseudo_eq_ok.1 hi
  exact ⟨rfl, rfl⟩

end

/-! ### The rows of each family (R95) -/

theorem rowsAlu_encode : ∀ e ∈ rowsAlu32 ++ rowsAlu64, RowEncodes e.1 e.2 := by
  simp only [rowsAlu32, rowsAlu64, List.forall_mem_append, List.forall_mem_cons]
  and_intros
  all_goals first
    | exact rowAluK_encodes fun _ _ => ⟨rfl, rfl⟩
    | exact rowAluX_encodes fun _ _ => ⟨rfl, rfl⟩
    | exact rowAluUn_encodes fun _ => ⟨rfl, rfl⟩
    | exact List.forall_mem_nil _

theorem rowsByteSwap_encode : ∀ e ∈ rowsByteSwap, RowEncodes e.1 e.2 := by
  simp only [rowsByteSwap, List.forall_mem_cons]
  and_intros
  · exact rowByteSwap_encodes (fun _ => ⟨rfl, rfl⟩) (fun _ => ⟨rfl, rfl⟩) (fun _ => ⟨rfl, rfl⟩)
  · exact rowByteSwap_encodes (fun _ => ⟨rfl, rfl⟩) (fun _ => ⟨rfl, rfl⟩) (fun _ => ⟨rfl, rfl⟩)
  · exact List.forall_mem_nil _

theorem rowsJump_encode : ∀ e ∈ rowsJump64 ++ rowsJump32, RowEncodes e.1 e.2 := by
  simp only [rowsJump64, rowsJump32, List.forall_mem_append, List.forall_mem_cons]
  and_intros
  all_goals first
    | exact rowJump_encodes
    | exact rowJccK_encodes fun _ _ _ => ⟨rfl, rfl⟩
    | exact rowJccX_encodes fun _ _ _ => ⟨rfl, rfl⟩
    | exact List.forall_mem_nil _

theorem rowsCallExit_encode : ∀ e ∈ rowsCallExit, RowEncodes e.1 e.2 := by
  simp only [rowsCallExit, List.forall_mem_cons]
  exact ⟨rowCall_encodes, rowExit_encodes, List.forall_mem_nil _⟩

theorem rowsLoadStore_encode : ∀ e ∈ rowsLoadStore, RowEncodes e.1 e.2 := by
  simp only [rowsLoadStore, List.forall_mem_cons]
  and_intros
  all_goals first
    | exact rowLdx_encodes fun _ _ _ => ⟨rfl, rfl⟩
    | exact rowSt_encodes fun _ _ _ => ⟨rfl, rfl⟩
    | exact rowStx_encodes fun _ _ _ => ⟨rfl, rfl⟩
    | exact List.forall_mem_nil _

theorem atomic32_encodesAs : ∀ form ∈ atomic32, ∀ d off s,
    EncodesAs (form.2.2 d off s) ⟨0xc3, regField d, regField s, off, form.1⟩ (!form.2.1 || writableReg s) := by
  simp only [atomic32, List.forall_mem_cons]
  and_intros
  all_goals first
    | exact fun _ _ _ => ⟨rfl, rfl⟩
    | exact List.forall_mem_nil _

theorem atomic64_encodesAs : ∀ form ∈ atomic64, ∀ d off s,
    EncodesAs (form.2.2 d off s) ⟨0xdb, regField d, regField s, off, form.1⟩ (!form.2.1 || writableReg s) := by
  simp only [atomic64, List.forall_mem_cons]
  and_intros
  all_goals first
    | exact fun _ _ _ => ⟨rfl, rfl⟩
    | exact List.forall_mem_nil _

theorem rowsAtomic_encode : ∀ e ∈ rowsAtomic, RowEncodes e.1 e.2 := by
  simp only [rowsAtomic, List.forall_mem_cons]
  exact ⟨rowAtomic_encodes atomic32_encodesAs, rowAtomic_encodes atomic64_encodesAs, List.forall_mem_nil _⟩

theorem rowsImm64_encode : ∀ e ∈ rowsImm64, RowEncodes e.1 e.2 := by
  simp only [rowsImm64, List.forall_mem_cons]
  exact ⟨rowImm64_encodes, List.forall_mem_nil _⟩

theorem rowsLegacy_encode : ∀ e ∈ rowsLegacy, RowEncodes e.1 e.2 := by
  simp only [rowsLegacy, List.forall_mem_cons]
  and_intros
  all_goals first
    | exact rowLegacy_encodes fun _ _ _ _ => ⟨rfl, rfl⟩
    | exact rowPseudo_encodes
    | exact List.forall_mem_nil _

theorem opcodeTable_encodes : ∀ e ∈ opcodeTable, RowEncodes e.1 e.2 := by
  obtain ⟨alu32, alu64⟩ := List.forall_mem_append.1 rowsAlu_encode
  obtain ⟨jump64, jump32⟩ := List.forall_mem_append.1 rowsJump_encode
  simp only [opcodeTable, List.forall_mem_append]
  exact ⟨⟨⟨⟨⟨⟨⟨⟨⟨alu32, alu64⟩, rowsByteSwap_encode⟩, jump64⟩, jump32⟩, rowsCallExit_encode⟩, rowsLoadStore_encode⟩,
    rowsAtomic_encode⟩, rowsImm64_encode⟩, rowsLegacy_encode⟩

/-- Settles O26: the decoder reads a slot by a row of the table, and every row reads nothing but encodings. -/
theorem encodeDecode : Obligations.EncodeDecode := by
  intro w next i h
  rw [decodeSlots] at h
  split at h
  · cases h
  · have reads : i.wf = true ∧ encode i = (Fields.ofSlot w).toSlot :: (if i.slots = 2 then next.toList else []) :=
      opcodeTable_encodes _ (mem_of_lookup_eq_some ‹_›) _ _ _ _ next i h
    rwa [Laws.toSlot_ofSlot] at reads

/-! ## Decoding what the encoder writes (R81, R84, R98) -/

/-- The decoder gives the instruction back from its encoding, whatever slots follow. -/
def DecodesBack (i : Instr) : Prop :=
  ∀ tail : List Slot, ∃ w rest, encode i ++ tail = w :: rest ∧ decodeSlots w rest.head? = .ok i

theorem decodeSlots_toSlot {f : Fields} {row : RowDecoder} (h : opcodeTable.lookup f.opcode = some row)
    (next : Option Slot) : decodeSlots f.toSlot next = row f next := by
  rw [decodeSlots, Laws.ofSlot_toSlot, h]

/-- An instruction decodes back if the row of its opcode byte gives it for its fields and for the slot after them. -/
theorem decodesBack_of_row {i : Instr} {f : Fields} {more : List Slot} {row : RowDecoder}
    (hencode : encode i = f.toSlot :: more) (hrow : opcodeTable.lookup f.opcode = some row)
    (h : ∀ tail, row f (more ++ tail).head? = .ok i) : DecodesBack i := by
  intro tail
  refine ⟨f.toSlot, more ++ tail, ?_, ?_⟩
  · rw [hencode, List.cons_append]
  · rw [decodeSlots_toSlot hrow, h tail]

/-- Settles O25, by the format of each instruction. -/
theorem decodeEncode : Obligations.DecodeEncode := by
  intro i hwf
  cases i
  case add32K | sub32K | mul32K | div32K | or32K | and32K | lsh32K | rsh32K | mod32K | xor32K | mov32K | arsh32K | add64K
      | sub64K | mul64K | div64K | or64K | and64K | lsh64K | rsh64K | mod64K | xor64K | mov64K | arsh64K =>
    exact decodesBack_of_row rfl rfl fun _ => rowAluK_eq_ok.2 ⟨_, hwf, rfl, rfl, rfl, rfl⟩
  case add32X | sub32X | mul32X | div32X | or32X | and32X | lsh32X | rsh32X | mod32X | xor32X | mov32X | arsh32X | add64X
      | sub64X | mul64X | div64X | or64X | and64X | lsh64X | rsh64X | mod64X | xor64X | mov64X | arsh64X =>
    exact decodesBack_of_row rfl rfl fun _ => rowAluX_eq_ok.2 ⟨_, _, hwf, rfl, rfl, rfl, rfl, rfl⟩
  case neg32 | neg64 => exact decodesBack_of_row rfl rfl fun _ => rowAluUn_eq_ok.2 ⟨_, hwf, rfl, rfl, rfl, rfl, rfl⟩
  case le16 | be16 =>
    exact decodesBack_of_row rfl rfl fun _ => rowByteSwap_eq_ok.2 ⟨_, .inl ⟨rfl, rfl⟩, _, hwf, rfl, rfl, rfl, rfl⟩
  case le32 | be32 =>
    exact decodesBack_of_row rfl rfl fun _ => rowByteSwap_eq_ok.2 ⟨_, .inr (.inl ⟨rfl, rfl⟩), _, hwf, rfl, rfl, rfl, rfl⟩
  case le64 | be64 =>
    exact decodesBack_of_row rfl rfl fun _ => rowByteSwap_eq_ok.2 ⟨_, .inr (.inr ⟨rfl, rfl⟩), _, hwf, rfl, rfl, rfl, rfl⟩
  case ja => exact decodesBack_of_row rfl rfl fun _ => rowJump_eq_ok.2 ⟨rfl, rfl, rfl, rfl⟩
  case jeq64K | jgt64K | jge64K | jset64K | jne64K | jsgt64K | jsge64K | jlt64K | jle64K | jslt64K | jsle64K | jeq32K
      | jgt32K | jge32K | jset32K | jne32K | jsgt32K | jsge32K | jlt32K | jle32K | jslt32K | jsle32K =>
    exact decodesBack_of_row rfl rfl fun _ => rowJccK_eq_ok.2 ⟨_, rfl, rfl, rfl⟩
  case jeq64X | jgt64X | jge64X | jset64X | jne64X | jsgt64X | jsge64X | jlt64X | jle64X | jslt64X | jsle64X | jeq32X
      | jgt32X | jge32X | jset32X | jne32X | jsgt32X | jsge32X | jlt32X | jle32X | jslt32X | jsle32X =>
    exact decodesBack_of_row rfl rfl fun _ => rowJccX_eq_ok.2 ⟨_, _, rfl, rfl, rfl, rfl⟩
  case callHelper => exact decodesBack_of_row rfl rfl fun _ => rowCall_eq_ok.2 (.inl ⟨rfl, rfl, rfl, rfl⟩)
  case callLocal => exact decodesBack_of_row rfl rfl fun _ => rowCall_eq_ok.2 (.inr (.inl ⟨rfl, rfl, rfl⟩))
  case callRuntime => exact decodesBack_of_row rfl rfl fun _ => rowCall_eq_ok.2 (.inr (.inr ⟨rfl, rfl, rfl, rfl⟩))
  case exit => exact decodesBack_of_row rfl rfl fun _ => rowExit_eq_ok.2 ⟨rfl, rfl, rfl, rfl, rfl⟩
  case ldxB | ldxH | ldxW | ldxDW =>
    exact decodesBack_of_row rfl rfl fun _ => rowLdx_eq_ok.2 ⟨_, _, hwf, rfl, rfl, rfl, rfl⟩
  case stB | stH | stW | stDW => exact decodesBack_of_row rfl rfl fun _ => rowSt_eq_ok.2 ⟨_, rfl, rfl, rfl⟩
  case stxB | stxH | stxW | stxDW => exact decodesBack_of_row rfl rfl fun _ => rowStx_eq_ok.2 ⟨_, _, rfl, rfl, rfl, rfl⟩
  case atomicAdd32 | atomicFetchAdd32 | atomicOr32 | atomicFetchOr32 | atomicAnd32 | atomicFetchAnd32 | atomicXor32
      | atomicFetchXor32 | atomicXchg32 | atomicCmpxchg32 | atomicAdd64 | atomicFetchAdd64 | atomicOr64 | atomicFetchOr64
      | atomicAnd64 | atomicFetchAnd64 | atomicXor64 | atomicFetchXor64 | atomicXchg64 | atomicCmpxchg64 =>
    exact decodesBack_of_row rfl rfl fun _ => rowAtomic_eq_ok.2 ⟨_, _, rfl, _, _, rfl, hwf, rfl, rfl⟩
  case ldImm64 | ldMapFd | ldMapFdValue | ldVarAddr | ldCodeAddr | ldMapIdx | ldMapIdxValue =>
    exact decodesBack_of_row rfl rfl fun _ => rowImm64_eq_ok.2 ⟨_, _, hwf, rfl, rfl, rfl, by simp⟩
  case ldAbsW | ldAbsH | ldAbsB | ldAbsDW | ldIndW | ldIndH | ldIndB | ldIndDW =>
    exact decodesBack_of_row rfl rfl fun _ => rowLegacy_eq_ok.2 rfl
  case pseudoSlot => exact decodesBack_of_row rfl rfl fun _ => rowPseudo_eq_ok.2 ⟨rfl, rfl, rfl, rfl⟩

/-! ## Where one basic instruction is read from (R83, R94) -/

/-- The two directions of the round trip, for the fields of a basic instruction. -/
theorem EncodesAs.readsFrom {i : Instr} {f : Fields} {legal : Bool} (h : EncodesAs i f legal) : ReadsFrom i f legal := by
  obtain ⟨rfl, hencode⟩ := h
  intro g next
  constructor
  · intro hdecode
    obtain ⟨hwf, hslots⟩ := encodeDecode g.toSlot next i hdecode
    rw [hencode, List.cons.injEq] at hslots
    refine ⟨hwf, ?_⟩
    rw [← Laws.ofSlot_toSlot g, ← hslots.1, Laws.ofSlot_toSlot]
  · rintro ⟨hwf, rfl⟩
    obtain ⟨w, rest, hslots, hdecode⟩ := decodeEncode i hwf next.toList
    rw [hencode, List.singleton_append, List.cons.injEq] at hslots
    obtain ⟨rfl, rfl⟩ := hslots
    rwa [Option.head?_toList] at hdecode

/-! ## The pseudo slot (R84, R92) -/

/-- The fault of an instruction that is not well-formed carries the slot at the pc (R341). -/
theorem illegal_of_slotAt {s : State} {w : Slot} (h : slotAt s.cfg s.pc = some w) (why : IllegalReason) :
    illegal s why = .illegalInstruction s.pc w why := by
  rw [slotAt] at h
  split at h
  · cases h
  · rw [illegal, currentSlot, h, Option.getD_some]

/-- An opcode byte 0x00 leads to the row of the pseudo slot, which reads the slot or knows no opcode. -/
theorem decodeSlots_of_opcode_zero {w : Slot} (h : w.extractLsb' 0 8 = 0) (next : Option Slot) :
    (∃ imm, decodeSlots w next = .ok (.pseudoSlot imm)) ∨ decodeSlots w next = .error .undefinedOpcode := by
  have hrow : opcodeTable.lookup (Fields.ofSlot w).opcode = some rowPseudo := by
    rw [show (Fields.ofSlot w).opcode = 0 from h]
    rfl
  rw [decodeSlots, hrow]
  simp only [rowPseudo]
  split
  · exact .inl ⟨_, rfl⟩
  · exact .inr rfl

/-- A running machine executes the instruction that the slots at the pc decode to, after the environment's turn (R376). -/
theorem step_of_decodeSlots_ok {s : State} {w : Slot} {i : Instr} (hrun : s.status = .running)
    (hslot : slotAt s.cfg s.pc = some w) (hdecode : decodeSlots w (slotAt s.cfg (s.pc + 1)) = .ok i) :
    step s = exec i (envTurn s) := by
  simp only [step, hrun, fetch, envTurn_cfg, envTurn_pc, hslot, hdecode]

/-- Where they decode to nothing, the step is the fault of the fetch (R341). -/
theorem step_of_decodeSlots_error {s : State} {w : Slot} {why : IllegalReason} (hrun : s.status = .running)
    (hslot : slotAt s.cfg s.pc = some w) (hdecode : decodeSlots w (slotAt s.cfg (s.pc + 1)) = .error why) :
    step s = .fault (.illegalInstruction s.pc w why) := by
  simp only [step, hrun, fetch, envTurn_cfg, envTurn_pc, hslot, hdecode]

theorem exec_pseudoSlot (imm : BitVec 32) (s : State) : exec (.pseudoSlot imm) s = .fault (illegal s .undefinedOpcode) := rfl

/-- A step at an opcode byte 0x00 is one fault, whether the slot has the form of a pseudo slot or not. -/
theorem step_of_opcode_zero {s : State} {w : Slot} (hrun : s.status = .running) (hslot : slotAt s.cfg s.pc = some w)
    (hop : w.extractLsb' 0 8 = 0) : step s = .fault (.illegalInstruction s.pc w .undefinedOpcode) := by
  obtain ⟨imm, hdecode⟩ | hdecode := decodeSlots_of_opcode_zero hop (slotAt s.cfg (s.pc + 1))
  · have hslot' : slotAt (envTurn s).cfg (envTurn s).pc = some w := by rwa [envTurn_cfg, envTurn_pc]
    rw [step_of_decodeSlots_ok hrun hslot hdecode, exec_pseudoSlot, illegal_of_slotAt hslot', envTurn_pc]
  · exact step_of_decodeSlots_error hrun hslot hdecode

/-- Settles O24: the pseudo slot is read from its own fields only, and a step at an opcode byte 0x00 is always the fault. -/
theorem pseudoSlotRefused : Obligations.PseudoSlotRefused :=
  ⟨fun imm => ⟨EncodesAs.readsFrom ⟨rfl, rfl⟩, exec_pseudoSlot imm⟩, fun _ _ => step_of_opcode_zero⟩

/-! ## The opcode map (R95) -/

/-- The 123 bytes are pairwise different; compared as numbers, which is what `decide` compares in few steps. -/
theorem opcodes_nodup : (opcodeTable.map Prod.fst).Nodup := by
  apply List.Nodup.of_map BitVec.toNat
  decide

/-- Settles O28: the map is a list of 123 rows, and a byte that is not a key of it finds none. -/
theorem opcodeMap : Obligations.OpcodeMap := by
  refine ⟨rfl, opcodes_nodup, fun w next h => ?_⟩
  have noRow : opcodeTable.lookup (Fields.ofSlot w).opcode = none := by
    rw [List.lookup_eq_none_iff]
    intro e he
    rw [bne_iff_ne]
    intro same
    exact h (same ▸ List.mem_map_of_mem he)
  rw [decodeSlots, noRow]

/-! ## The byte image (R86) -/

theorem natBytes_toNat (n : Nat) (v : Word) : natBytes n v.toNat = lowBytes n v := by
  induction n generalizing v with
  | zero => rfl
  | succ n ih => rw [natBytes, lowBytes, ← ih, BitVec.toNat_ushiftRight, Nat.shiftRight_eq_div_pow, BitVec.ofNat_toNat]

/-- A slot's image is what a store of all its bytes would write, low byte first. -/
theorem slotImage_eq_lowBytes (w : Slot) : slotImage w = lowBytes 8 w := natBytes_toNat 8 w

theorem natOfBytes_slotImage (w : Slot) : natOfBytes (slotImage w) = w.toNat := by
  rw [slotImage_eq_lowBytes, ← (toNat_wordOfBytes (lowBytes 8 w) (by simp)).1]
  exact (toNat_truncTo 8 w le_rfl).trans (Nat.mod_eq_of_lt w.isLt)

/-- Reading eight bytes and then the rest. -/
theorem slotsOfImage_slotImage_append (w : Slot) (image : List Byte) :
    slotsOfImage (slotImage w ++ image) = (slotsOfImage image).map (w :: ·) := by
  have value : BitVec.ofNat 64 (natOfBytes (slotImage w)) = w := by
    rw [natOfBytes_slotImage, BitVec.ofNat_toNat, BitVec.setWidth_eq]
  calc slotsOfImage (slotImage w ++ image)
      = (slotsOfImage image).map (BitVec.ofNat 64 (natOfBytes (slotImage w)) :: ·) := rfl
    _ = (slotsOfImage image).map (w :: ·) := by rw [value]

theorem slotsOfImage_flatMap_slotImage (p : List Slot) : slotsOfImage (p.flatMap slotImage) = some p := by
  induction p with
  | nil => rfl
  | cons w p ih => rw [List.flatMap_cons, slotsOfImage_slotImage_append, ih, Option.map_some]

theorem extractLsb'_extractLsb' {w : Nat} (x : BitVec w) {start len start' len' : Nat} (h : start' + len' ≤ len) :
    (x.extractLsb' start len).extractLsb' start' len' = x.extractLsb' (start + start') len' := by
  ext k hk
  simp [show start' + k < len by omega, Nat.add_assoc]

/-- The bytes of a slot's image are slices of its fields; `src` and `dst` share the second one. -/
theorem slotImage_eq_fields (w : Slot) : slotImage w =
    [(Fields.ofSlot w).opcode, (Fields.ofSlot w).src ++ (Fields.ofSlot w).dst, (Fields.ofSlot w).offset.extractLsb' 0 8,
      (Fields.ofSlot w).offset.extractLsb' 8 8, (Fields.ofSlot w).imm.extractLsb' 0 8,
      (Fields.ofSlot w).imm.extractLsb' 8 8, (Fields.ofSlot w).imm.extractLsb' 16 8,
      (Fields.ofSlot w).imm.extractLsb' 24 8] := by
  have nibbles : w.extractLsb' 12 4 ++ w.extractLsb' 8 4 = w.extractLsb' 8 8 :=
    BitVec.extractLsb'_append_extractLsb'_eq_extractLsb' rfl
  simp [slotImage_eq_lowBytes, lowBytes_eq, List.range_succ, byteOf, Fields.ofSlot, extractLsb'_extractLsb', nibbles]

theorem slotImage_toSlot (f : Fields) : slotImage f.toSlot =
    [f.opcode, f.src ++ f.dst, f.offset.extractLsb' 0 8, f.offset.extractLsb' 8 8, f.imm.extractLsb' 0 8,
      f.imm.extractLsb' 8 8, f.imm.extractLsb' 16 8, f.imm.extractLsb' 24 8] := by
  rw [slotImage_eq_fields, Laws.ofSlot_toSlot]

/-- Settles O29: an image reads back slot by slot, and its bytes are slices of the fields. -/
theorem byteImage : Obligations.ByteImage :=
  ⟨slotsOfImage_flatMap_slotImage, slotImage_toSlot⟩

end Sys2Proof.Machine

/-! 32-bit arithmetic (`40_alu32.md`): the rules of the ALU formats from one equation for each shared operation, the results of the
operations, and what the upper halves of the operands do. -/

namespace Sys2Proof.Machine

/-! ## Writing one register (R27, R124) -/

/-- What an instruction does that, after its reads, writes one register and moves on. -/
theorem AfterReads.writesReg {s u : State} (h : AfterReads s u) (dst : RegNum) (v : Word) (n : Nat) :
    WritesReg s (advance (setReg u dst v) n) dst v n u.fresh where
  value := set_self u.x dst (Reg.of v)
  others r hr := by rw [advance_x, setReg_x, set_other _ _ _ _ hr, h.x]
  pc := by rw [h]; rfl
  memory a := by rw [h]; rfl
  stored := by rw [h]; rfl
  fresh := rfl
  rest := h.sameRest.trans ⟨rfl, rfl, rfl, rfl, rfl⟩

/-- The end of an arithmetic instruction: the result goes to x[dst] of the state `u` after the reads, or none stands for the refused
shift of the state `s` before them (R344). -/
def writeOrRefuse (s u : State) (dst : RegNum) : Option Word → Host.Outcome State Fault Refusal
  | some v => .next (advance (setReg u dst v) 1)
  | none => .fault (.refusedShift s.pc)

/-! ## The rules of the ALU formats (R98, R124) -/

/-- A rule of format `ALU_K` holds of an instruction with its encoding that reads x[dst] and writes the result. -/
theorem aluImmRule_of_exec {mk : RegNum → BitVec 32 → Instr} {opcode : BitVec 8}
    {result : Config → Word → BitVec 32 → Option Word}
    (hencode : ∀ dst imm, EncodesAs (mk dst imm) ⟨opcode, regField dst, 0, 0, imm⟩ (writableReg dst))
    (hexec : ∀ dst imm s, exec (mk dst imm) s =
      if writableReg dst = true then
        if canRead s dst = true then writeOrRefuse s (draw s dst).2 dst (result s.cfg (draw s dst).1 imm)
        else .fault (.unwrittenRegister s.pc dst)
      else .fault (illegal s .badRegister)) :
    AluImmRule mk opcode result := by
  intro dst imm
  refine ⟨(hencode dst imm).readsFrom, fun s => ⟨fun hw => ?_, fun hw hr => ?_, fun hw hr hres => ?_,
    fun v hw hr hres => ?_⟩⟩
  · simp [hexec, hw]
  · simp [hexec, hw, hr]
  · simp [hexec, hw, hr, hres, writeOrRefuse]
  · exact ⟨_, by simp [hexec, hw, hr, hres, writeOrRefuse], ((AfterReads.refl s).draw dst).writesReg dst v 1⟩

/-- A rule of format `ALU_X` holds of an instruction with its encoding that reads both registers and writes the result. -/
theorem aluRegRule_of_exec {mk : RegNum → RegNum → Instr} {opcode : BitVec 8}
    {result : Config → Word → Word → Option Word}
    (hencode : ∀ dst src, EncodesAs (mk dst src) ⟨opcode, regField dst, regField src, 0, 0⟩ (writableReg dst))
    (hexec : ∀ dst src s, exec (mk dst src) s =
      if writableReg dst = true then
        if canRead s dst = true ∧ canRead s src = true then
          writeOrRefuse s (draw (draw s dst).2 src).2 dst (result s.cfg (draw s dst).1 (draw (draw s dst).2 src).1)
        else .fault (.unwrittenRegister s.pc (lowUnreadable s dst src))
      else .fault (illegal s .badRegister)) :
    AluRegRule mk opcode result := by
  intro dst src
  refine ⟨(hencode dst src).readsFrom, fun s => ⟨fun hw => ?_, fun hw hr => ?_, fun hw hd hs hres => ?_,
    fun v hw hd hs hres => ?_⟩⟩
  · simp [hexec, hw]
  · rw [hexec, if_pos hw, if_neg hr]
  · simp [hexec, hw, hd, hs, hres, writeOrRefuse]
  · exact ⟨_, by simp [hexec, hw, hd, hs, hres, writeOrRefuse],
      (((AfterReads.refl s).draw dst).draw src).writesReg dst v 1⟩

/-- The rule of an instruction that changes one register in place, from its encoding and the function that it applies. -/
theorem unaryRule_of_exec (f : Config → Word → Word) {mk : RegNum → Instr} {opcode : BitVec 8} {selector : BitVec 32}
    {result : Config → Word → Word}
    (hencode : ∀ dst, EncodesAs (mk dst) ⟨opcode, regField dst, 0, 0, selector⟩ (writableReg dst))
    (hexec : ∀ dst s, exec (mk dst) s = unary (f s.cfg) dst s) (hresult : ∀ c a, f c a = result c a) :
    UnaryRule mk opcode selector result := by
  obtain rfl : f = result := funext fun c => funext (hresult c)
  intro dst
  refine ⟨(hencode dst).readsFrom, fun s => ⟨fun hw => ?_, fun hw hr => ?_, fun hw hr => ?_⟩⟩
  · simp [hexec, unary_eq, hw]
  · simp [hexec, unary_eq, hw, hr]
  · exact ⟨_, by simp only [hexec, unary_eq, hw, hr, if_true], ((AfterReads.refl s).draw dst).writesReg dst _ 1⟩

/-- A move of a constant of one slot: it faults only where it would write R10, and reads nothing (R345). -/
theorem moveConst_rule (dst : RegNum) (v : Word) (s : State) :
    (writableReg dst = false → moveConst 1 dst v s = .fault (illegal s .badRegister)) ∧
      (writableReg dst = true → ∃ t, moveConst 1 dst v s = .next t ∧ WritesReg s t dst v 1 s.fresh) := by
  rw [moveConst_eq]
  refine ⟨fun hw => ?_, fun hw => ?_⟩
  · simp [hw]
  · exact ⟨_, if_pos hw, (AfterReads.refl s).writesReg dst v 1⟩

/-- A move from a register: it reads x[src] and not x[dst] (R345). -/
theorem moveReg_rule (f : Word → Word) (dst src : RegNum) (s : State) :
    (writableReg dst = false → moveReg f dst src s = .fault (illegal s .badRegister)) ∧
      (writableReg dst = true → canRead s src = false → moveReg f dst src s = .fault (.unwrittenRegister s.pc src)) ∧
      (writableReg dst = true → canRead s src = true → ∃ t, moveReg f dst src s = .next t ∧
        WritesReg s t dst (f (draw s src).1) 1 (draw s src).2.fresh) := by
  rw [moveReg_eq]
  refine ⟨fun hw => ?_, fun hw hr => ?_, fun hw hr => ?_⟩
  · simp [hw]
  · simp [hw, hr]
  · exact ⟨_, by rw [if_pos hw, if_pos hr], ((AfterReads.refl s).draw src).writesReg dst _ 1⟩

/-! ## The results of the operations, for every width (R122, R123, R152, R153) -/

section
variable {w : Nat}

/-- The quotient in the library's words: `sdiv` truncates, and wraps where the most negative number is divided by -1. -/
theorem divide_eq (mode : DivMode) (a b : BitVec w) : divide mode a b =
    if b = 0 then 0 else match mode with
      | .unsigned => a / b
      | .signed => a.sdiv b := by
  unfold divide
  split_ifs
  · rfl
  · cases mode with
    | unsigned => exact BitVec.udiv_def.symm
    | signed => exact BitVec.eq_of_toInt_eq (by rw [BitVec.toInt_ofInt, BitVec.toInt_sdiv])

/-- The remainder in the library's words: `srem` takes the sign of the first operand. -/
theorem modulo_eq (mode : DivMode) (a b : BitVec w) : modulo mode a b =
    if b = 0 then a else match mode with
      | .unsigned => a % b
      | .signed => a.srem b := by
  unfold modulo
  split_ifs
  · rfl
  · cases mode with
    | unsigned => rw [← Nat.mod_def, BitVec.umod_def]
    | signed => rw [← Int.tmod_def, ← BitVec.toInt_srem, BitVec.ofInt_toInt]

theorem divide_zero (mode : DivMode) (a : BitVec w) : divide mode a 0 = 0 := if_pos rfl

theorem modulo_zero (mode : DivMode) (a : BitVec w) : modulo mode a 0 = a := if_pos rfl

/-- What is computed from a shift count: from the count modulo the width, or from the count itself where it is not refused. -/
theorem map_shiftCount {α : Type} (mode : ShiftMode) (b : BitVec w) (f : Nat → α) : (shiftCount mode b).map f =
    match mode with
      | .mask => some (f (b.toNat % w))
      | .refuse => if b.toNat < w then some (f b.toNat) else none := by
  cases mode with
  | mask => rfl
  | refuse => simp only [shiftCount, Option.map_if]

end

/-- Settles O49: the four values, and the first branch of the quotient and of the remainder. -/
theorem truncatedModulo : Obligations.TruncatedModulo :=
  ⟨by decide, by decide, by decide, by decide, fun _ a mode => ⟨divide_zero mode a, modulo_zero mode a⟩⟩

/-! ## The 32-bit results in a register (R120) -/

/-- What a 32-bit operation writes: its result zero-extended, none for a refused shift. -/
def alu32Value (c : Config) (op : AluOp) (a b : BitVec 32) : Option Word := (aluResult c op a b).map zext64

theorem alu32Value_div (c : Config) (a b : BitVec 32) : alu32Value c .div a b =
    some (zext64 (if b = 0 then 0 else match c.divmodSigned with
      | .unsigned => a / b
      | .signed => a.sdiv b)) :=
  congrArg (some ∘ zext64) (divide_eq c.divmodSigned a b)

theorem alu32Value_mod (c : Config) (a b : BitVec 32) : alu32Value c .mod a b =
    some (zext64 (if b = 0 then a else match c.divmodSigned with
      | .unsigned => a % b
      | .signed => a.srem b)) :=
  congrArg (some ∘ zext64) (modulo_eq c.divmodSigned a b)

theorem alu32Value_lsh (c : Config) (a b : BitVec 32) : alu32Value c .lsh a b =
    match c.shiftOverwidth with
      | .mask => some (zext64 (a <<< (b.toNat % 32)))
      | .refuse => if b.toNat < 32 then some (zext64 (a <<< b.toNat)) else none :=
  (Option.map_map _ _ _).trans (map_shiftCount c.shiftOverwidth b fun n => zext64 (a <<< n))

theorem alu32Value_rsh (c : Config) (a b : BitVec 32) : alu32Value c .rsh a b =
    match c.shiftOverwidth with
      | .mask => some (zext64 (a >>> (b.toNat % 32)))
      | .refuse => if b.toNat < 32 then some (zext64 (a >>> b.toNat)) else none :=
  (Option.map_map _ _ _).trans (map_shiftCount c.shiftOverwidth b fun n => zext64 (a >>> n))

theorem alu32Value_arsh (c : Config) (a b : BitVec 32) : alu32Value c .arsh a b =
    match c.shiftOverwidth with
      | .mask => some (zext64 (a.sshiftRight (b.toNat % 32)))
      | .refuse => if b.toNat < 32 then some (zext64 (a.sshiftRight b.toNat)) else none :=
  (Option.map_map _ _ _).trans (map_shiftCount c.shiftOverwidth b fun n => zext64 (a.sshiftRight n))

theorem alu32K_eq_writeOrRefuse (op : AluOp) (dst : RegNum) (imm : BitVec 32) (s : State) :
    alu32K op dst imm s =
      if writableReg dst = true then
        if canRead s dst = true then
          writeOrRefuse s (draw s dst).2 dst (alu32Value s.cfg op (lo32 (draw s dst).1) imm)
        else .fault (.unwrittenRegister s.pc dst)
      else .fault (illegal s .badRegister) := by
  rw [alu32K_eq, alu32Value]
  cases aluResult s.cfg op (lo32 (draw s dst).1) imm <;> rfl

theorem alu32X_eq_writeOrRefuse (op : AluOp) (dst src : RegNum) (s : State) :
    alu32X op dst src s =
      if writableReg dst = true then
        if canRead s dst = true ∧ canRead s src = true then
          writeOrRefuse s (draw (draw s dst).2 src).2 dst
            (alu32Value s.cfg op (lo32 (draw s dst).1) (lo32 (draw (draw s dst).2 src).1))
        else .fault (.unwrittenRegister s.pc (lowUnreadable s dst src))
      else .fault (illegal s .badRegister) := by
  rw [alu32X_eq, alu32Value]
  cases aluResult s.cfg op (lo32 (draw s dst).1) (lo32 (draw (draw s dst).2 src).1) <;> rfl

/-! ## The instructions of class BPF_ALU (R125 to R149) -/

/-- The rule of a 32-bit operation with an immediate, from its encoding, its meaning and what it writes. -/
theorem alu32K_rule (op : AluOp) {mk : RegNum → BitVec 32 → Instr} {opcode : BitVec 8}
    {result : Config → Word → BitVec 32 → Option Word}
    (hencode : ∀ dst imm, EncodesAs (mk dst imm) ⟨opcode, regField dst, 0, 0, imm⟩ (writableReg dst))
    (hexec : ∀ dst imm s, exec (mk dst imm) s = alu32K op dst imm s)
    (hresult : ∀ c a imm, alu32Value c op (lo32 a) imm = result c a imm) : AluImmRule mk opcode result :=
  aluImmRule_of_exec hencode fun dst imm s => by rw [hexec, alu32K_eq_writeOrRefuse, hresult]

/-- The rule of a 32-bit operation with a register, from its encoding, its meaning and what it writes. -/
theorem alu32X_rule (op : AluOp) {mk : RegNum → RegNum → Instr} {opcode : BitVec 8}
    {result : Config → Word → Word → Option Word}
    (hencode : ∀ dst src, EncodesAs (mk dst src) ⟨opcode, regField dst, regField src, 0, 0⟩ (writableReg dst))
    (hexec : ∀ dst src s, exec (mk dst src) s = alu32X op dst src s)
    (hresult : ∀ c a b, alu32Value c op (lo32 a) (lo32 b) = result c a b) : AluRegRule mk opcode result :=
  aluRegRule_of_exec hencode fun dst src s => by rw [hexec, alu32X_eq_writeOrRefuse, hresult]

/-- Settles O1: each instruction runs its operation of `alu32K`; MOV reads nothing. -/
theorem alu32ImmediateForms : Obligations.Alu32ImmediateForms :=
  ⟨alu32K_rule .add (fun _ _ => ⟨rfl, rfl⟩) (fun _ _ _ => rfl) fun _ _ _ => rfl,
    alu32K_rule .sub (fun _ _ => ⟨rfl, rfl⟩) (fun _ _ _ => rfl) fun _ _ _ => rfl,
    alu32K_rule .mul (fun _ _ => ⟨rfl, rfl⟩) (fun _ _ _ => rfl) fun _ _ _ => rfl,
    alu32K_rule .div (fun _ _ => ⟨rfl, rfl⟩) (fun _ _ _ => rfl) fun c a imm => alu32Value_div c (lo32 a) imm,
    alu32K_rule .or (fun _ _ => ⟨rfl, rfl⟩) (fun _ _ _ => rfl) fun _ _ _ => rfl,
    alu32K_rule .and (fun _ _ => ⟨rfl, rfl⟩) (fun _ _ _ => rfl) fun _ _ _ => rfl,
    alu32K_rule .lsh (fun _ _ => ⟨rfl, rfl⟩) (fun _ _ _ => rfl) fun c a imm => alu32Value_lsh c (lo32 a) imm,
    alu32K_rule .rsh (fun _ _ => ⟨rfl, rfl⟩) (fun _ _ _ => rfl) fun c a imm => alu32Value_rsh c (lo32 a) imm,
    alu32K_rule .mod (fun _ _ => ⟨rfl, rfl⟩) (fun _ _ _ => rfl) fun c a imm => alu32Value_mod c (lo32 a) imm,
    alu32K_rule .xor (fun _ _ => ⟨rfl, rfl⟩) (fun _ _ _ => rfl) fun _ _ _ => rfl,
    alu32K_rule .arsh (fun _ _ => ⟨rfl, rfl⟩) (fun _ _ _ => rfl) fun c a imm => alu32Value_arsh c (lo32 a) imm,
    fun dst imm => ⟨EncodesAs.readsFrom ⟨rfl, rfl⟩, moveConst_rule dst (zext64 imm)⟩⟩

/-- Settles O2: each instruction runs its operation of `alu32X`; MOV does not read its destination. -/
theorem alu32RegisterForms : Obligations.Alu32RegisterForms :=
  ⟨alu32X_rule .add (fun _ _ => ⟨rfl, rfl⟩) (fun _ _ _ => rfl) fun _ _ _ => rfl,
    alu32X_rule .sub (fun _ _ => ⟨rfl, rfl⟩) (fun _ _ _ => rfl) fun _ _ _ => rfl,
    alu32X_rule .mul (fun _ _ => ⟨rfl, rfl⟩) (fun _ _ _ => rfl) fun _ _ _ => rfl,
    alu32X_rule .div (fun _ _ => ⟨rfl, rfl⟩) (fun _ _ _ => rfl) fun c a b => alu32Value_div c (lo32 a) (lo32 b),
    alu32X_rule .or (fun _ _ => ⟨rfl, rfl⟩) (fun _ _ _ => rfl) fun _ _ _ => rfl,
    alu32X_rule .and (fun _ _ => ⟨rfl, rfl⟩) (fun _ _ _ => rfl) fun _ _ _ => rfl,
    alu32X_rule .lsh (fun _ _ => ⟨rfl, rfl⟩) (fun _ _ _ => rfl) fun c a b => alu32Value_lsh c (lo32 a) (lo32 b),
    alu32X_rule .rsh (fun _ _ => ⟨rfl, rfl⟩) (fun _ _ _ => rfl) fun c a b => alu32Value_rsh c (lo32 a) (lo32 b),
    alu32X_rule .mod (fun _ _ => ⟨rfl, rfl⟩) (fun _ _ _ => rfl) fun c a b => alu32Value_mod c (lo32 a) (lo32 b),
    alu32X_rule .xor (fun _ _ => ⟨rfl, rfl⟩) (fun _ _ _ => rfl) fun _ _ _ => rfl,
    alu32X_rule .arsh (fun _ _ => ⟨rfl, rfl⟩) (fun _ _ _ => rfl) fun c a b => alu32Value_arsh c (lo32 a) (lo32 b),
    fun dst src => ⟨EncodesAs.readsFrom ⟨rfl, rfl⟩, moveReg_rule (fun v => zext64 (lo32 v)) dst src⟩⟩

/-- Settles O5: both are `unary` with a negation, which is the subtraction from 0. -/
theorem negationForms : Obligations.NegationForms :=
  ⟨unaryRule_of_exec (fun _ v => zext64 (-lo32 v)) (fun _ => ⟨rfl, rfl⟩) (fun _ _ => rfl)
      fun _ a => congrArg zext64 (BitVec.zero_sub (lo32 a)).symm,
    unaryRule_of_exec (fun _ v => -v) (fun _ => ⟨rfl, rfl⟩) (fun _ _ => rfl) fun _ a => (BitVec.zero_sub a).symm⟩

/-! ## The upper halves (R120) -/

/-- What x[dst] holds after an operation on two registers with values: a result that depends on nothing but the parameters and
the low halves. -/
theorem alu32X_next_dst {op : AluOp} {dst src : RegNum} {s t : State} (hdst : s.x[dst].written = true)
    (hsrc : s.x[src].written = true) (h : alu32X op dst src s = .next t) :
    ∃ r, aluResult s.cfg op (lo32 s.x[dst].value) (lo32 s.x[src].value) = some r ∧ t.x[dst] = Reg.of (zext64 r) := by
  rw [alu32X_eq, draw_of_written s dst hdst, draw_of_written s src hsrc] at h
  split_ifs at h
  split at h
  · next r hr =>
    cases h
    exact ⟨r, hr, set_self s.x dst _⟩
  · cases h

theorem toNat_zext64_lt (v : BitVec 32) : (zext64 v).toNat < 2 ^ 32 := by
  rw [zext64, BitVec.toNat_setWidth_of_le (by decide)]
  exact v.isLt

/-- Settles O47: both runs compute the same 32-bit result, and it is zero-extended. -/
theorem alu32IgnoresUpperHalves : Obligations.Alu32IgnoresUpperHalves := by
  intro op dst src s s' t t' hcfg hdst hdst' hsrc hsrc' hlowDst hlowSrc h h'
  obtain ⟨r, hr, ht⟩ := alu32X_next_dst hdst hsrc h
  obtain ⟨r', hr', ht'⟩ := alu32X_next_dst hdst' hsrc' h'
  have same : r' = r := by
    rw [hcfg, hlowDst, hlowSrc, hr] at hr'
    exact (Option.some.inj hr').symm
  rw [ht, ht', same]
  exact ⟨rfl, toNat_zext64_lt r⟩

end Sys2Proof.Machine

/-! 64-bit arithmetic (`41_alu64.md`): what the operations answer at any width, and the instructions of class BPF_ALU64. -/

namespace Sys2Proof.Machine

/-! ## What division, remainder and shifts answer, for every width (R152, R153) -/

section
variable {w : Nat}

theorem aluResult_div (c : Config) (a b : BitVec w) : aluResult c .div a b =
    some (if b = 0 then 0 else match c.divmodSigned with
      | .unsigned => a / b
      | .signed => a.sdiv b) :=
  congrArg some (divide_eq c.divmodSigned a b)

theorem aluResult_mod (c : Config) (a b : BitVec w) : aluResult c .mod a b =
    some (if b = 0 then a else match c.divmodSigned with
      | .unsigned => a % b
      | .signed => a.srem b) :=
  congrArg some (modulo_eq c.divmodSigned a b)

theorem aluResult_lsh (c : Config) (a b : BitVec w) : aluResult c .lsh a b =
    match c.shiftOverwidth with
      | .mask => some (a <<< (b.toNat % w))
      | .refuse => if b.toNat < w then some (a <<< b.toNat) else none :=
  map_shiftCount c.shiftOverwidth b (a <<< ·)

theorem aluResult_rsh (c : Config) (a b : BitVec w) : aluResult c .rsh a b =
    match c.shiftOverwidth with
      | .mask => some (a >>> (b.toNat % w))
      | .refuse => if b.toNat < w then some (a >>> b.toNat) else none :=
  map_shiftCount c.shiftOverwidth b (a >>> ·)

theorem aluResult_arsh (c : Config) (a b : BitVec w) : aluResult c .arsh a b =
    match c.shiftOverwidth with
      | .mask => some (a.sshiftRight (b.toNat % w))
      | .refuse => if b.toNat < w then some (a.sshiftRight b.toNat) else none :=
  map_shiftCount c.shiftOverwidth b a.sshiftRight

end

/-! ## The shared operations of class BPF_ALU64 (R150, R154) -/

theorem alu64K_eq_writeOrRefuse (op : AluOp) (dst : RegNum) (imm : BitVec 32) (s : State) :
    alu64K op dst imm s =
      if writableReg dst = true then
        if canRead s dst = true then
          writeOrRefuse s (draw s dst).2 dst (aluResult s.cfg op (draw s dst).1 (sext64 imm))
        else .fault (.unwrittenRegister s.pc dst)
      else .fault (illegal s .badRegister) := by
  rw [alu64K_eq]
  cases aluResult s.cfg op (draw s dst).1 (sext64 imm) <;> rfl

theorem alu64X_eq_writeOrRefuse (op : AluOp) (dst src : RegNum) (s : State) :
    alu64X op dst src s =
      if writableReg dst = true then
        if canRead s dst = true ∧ canRead s src = true then
          writeOrRefuse s (draw (draw s dst).2 src).2 dst
            (aluResult s.cfg op (draw s dst).1 (draw (draw s dst).2 src).1)
        else .fault (.unwrittenRegister s.pc (lowUnreadable s dst src))
      else .fault (illegal s .badRegister) := by
  rw [alu64X_eq]
  cases aluResult s.cfg op (draw s dst).1 (draw (draw s dst).2 src).1 <;> rfl

/-- The rule of a 64-bit operation with an immediate, from its encoding, its meaning and the operation's answer for the
sign-extended immediate. -/
theorem alu64K_rule (op : AluOp) {mk : RegNum → BitVec 32 → Instr} {opcode : BitVec 8}
    {result : Config → Word → BitVec 32 → Option Word}
    (hencode : ∀ dst imm, EncodesAs (mk dst imm) ⟨opcode, regField dst, 0, 0, imm⟩ (writableReg dst))
    (hexec : ∀ dst imm s, exec (mk dst imm) s = alu64K op dst imm s)
    (hresult : ∀ c a imm, aluResult c op a (sext64 imm) = result c a imm) : AluImmRule mk opcode result :=
  aluImmRule_of_exec hencode fun dst imm s => by rw [hexec, alu64K_eq_writeOrRefuse, hresult]

/-- The rule of a 64-bit operation with a register, from its encoding, its meaning and the operation's answer. -/
theorem alu64X_rule (op : AluOp) {mk : RegNum → RegNum → Instr} {opcode : BitVec 8}
    {result : Config → Word → Word → Option Word}
    (hencode : ∀ dst src, EncodesAs (mk dst src) ⟨opcode, regField dst, regField src, 0, 0⟩ (writableReg dst))
    (hexec : ∀ dst src s, exec (mk dst src) s = alu64X op dst src s)
    (hresult : ∀ c a b, aluResult c op a b = result c a b) : AluRegRule mk opcode result :=
  aluRegRule_of_exec hencode fun dst src s => by rw [hexec, alu64X_eq_writeOrRefuse, hresult]

/-! ## The instructions of class BPF_ALU64 (R155 to R179) -/

/-- Settles O3: each instruction runs its operation of `alu64K` on the sign-extended immediate; MOV reads nothing. -/
theorem alu64ImmediateForms : Obligations.Alu64ImmediateForms :=
  ⟨alu64K_rule .add (fun _ _ => ⟨rfl, rfl⟩) (fun _ _ _ => rfl) fun _ _ _ => rfl,
    alu64K_rule .sub (fun _ _ => ⟨rfl, rfl⟩) (fun _ _ _ => rfl) fun _ _ _ => rfl,
    alu64K_rule .mul (fun _ _ => ⟨rfl, rfl⟩) (fun _ _ _ => rfl) fun _ _ _ => rfl,
    alu64K_rule .div (fun _ _ => ⟨rfl, rfl⟩) (fun _ _ _ => rfl) fun c a imm => aluResult_div c a (sext64 imm),
    alu64K_rule .or (fun _ _ => ⟨rfl, rfl⟩) (fun _ _ _ => rfl) fun _ _ _ => rfl,
    alu64K_rule .and (fun _ _ => ⟨rfl, rfl⟩) (fun _ _ _ => rfl) fun _ _ _ => rfl,
    alu64K_rule .lsh (fun _ _ => ⟨rfl, rfl⟩) (fun _ _ _ => rfl) fun c a imm => aluResult_lsh c a (sext64 imm),
    alu64K_rule .rsh (fun _ _ => ⟨rfl, rfl⟩) (fun _ _ _ => rfl) fun c a imm => aluResult_rsh c a (sext64 imm),
    alu64K_rule .mod (fun _ _ => ⟨rfl, rfl⟩) (fun _ _ _ => rfl) fun c a imm => aluResult_mod c a (sext64 imm),
    alu64K_rule .xor (fun _ _ => ⟨rfl, rfl⟩) (fun _ _ _ => rfl) fun _ _ _ => rfl,
    alu64K_rule .arsh (fun _ _ => ⟨rfl, rfl⟩) (fun _ _ _ => rfl) fun c a imm => aluResult_arsh c a (sext64 imm),
    fun dst imm => ⟨EncodesAs.readsFrom ⟨rfl, rfl⟩, moveConst_rule dst (sext64 imm)⟩⟩

/-- Settles O4: each instruction runs its operation of `alu64X`; MOV does not read its destination. -/
theorem alu64RegisterForms : Obligations.Alu64RegisterForms :=
  ⟨alu64X_rule .add (fun _ _ => ⟨rfl, rfl⟩) (fun _ _ _ => rfl) fun _ _ _ => rfl,
    alu64X_rule .sub (fun _ _ => ⟨rfl, rfl⟩) (fun _ _ _ => rfl) fun _ _ _ => rfl,
    alu64X_rule .mul (fun _ _ => ⟨rfl, rfl⟩) (fun _ _ _ => rfl) fun _ _ _ => rfl,
    alu64X_rule .div (fun _ _ => ⟨rfl, rfl⟩) (fun _ _ _ => rfl) aluResult_div,
    alu64X_rule .or (fun _ _ => ⟨rfl, rfl⟩) (fun _ _ _ => rfl) fun _ _ _ => rfl,
    alu64X_rule .and (fun _ _ => ⟨rfl, rfl⟩) (fun _ _ _ => rfl) fun _ _ _ => rfl,
    alu64X_rule .lsh (fun _ _ => ⟨rfl, rfl⟩) (fun _ _ _ => rfl) aluResult_lsh,
    alu64X_rule .rsh (fun _ _ => ⟨rfl, rfl⟩) (fun _ _ _ => rfl) aluResult_rsh,
    alu64X_rule .mod (fun _ _ => ⟨rfl, rfl⟩) (fun _ _ _ => rfl) aluResult_mod,
    alu64X_rule .xor (fun _ _ => ⟨rfl, rfl⟩) (fun _ _ _ => rfl) fun _ _ _ => rfl,
    alu64X_rule .arsh (fun _ _ => ⟨rfl, rfl⟩) (fun _ _ _ => rfl) aluResult_arsh,
    fun dst src => ⟨EncodesAs.readsFrom ⟨rfl, rfl⟩, moveReg_rule id dst src⟩⟩

end Sys2Proof.Machine

/-! Byte swaps (`42_byteswap.md`): a conversion of the low bytes as slices of the value and as its own inverse, and the
instructions of BPF_END. -/

namespace Sys2Proof.Machine

/-! ## The low bits and their bytes reversed, as slices (R54, R181, R182) -/

theorem truncTo_eq_setWidth {n : Nat} (hn : n ≤ 8) (v : Word) : truncTo n v = (v.setWidth (8 * n)).setWidth 64 := by
  apply BitVec.eq_of_toNat_eq
  rw [toNat_truncTo n v hn, BitVec.toNat_setWidth_of_le (by omega), BitVec.toNat_setWidth]

/-- A byte below a value, the least significant first, stands on its right in a concatenation. -/
theorem wordOfBytes_cons {w : Nat} {x : BitVec w} {bs : List Byte} (h : wordOfBytes bs = x.setWidth 64) (b : Byte) :
    wordOfBytes (b :: bs) = (x ++ b).setWidth 64 := by
  rw [wordOfBytes, h]
  ext i hi
  by_cases hlow : i < 8
  · simp [BitVec.getLsbD_append, hlow]
  · have above : b.getLsbD i = false := BitVec.getLsbD_of_ge b i (by omega)
    simp [BitVec.getLsbD_append, hlow, above]

/-- With one byte more, the reversal has that byte on the right: the highest of the value becomes the lowest. -/
theorem swapBytes_succ {n w : Nat} {x : BitVec w} {v : Word} (h : swapBytes n v = x.setWidth 64) :
    swapBytes (n + 1) v = (x ++ byteOf v n).setWidth 64 := by
  have bytes : (lowBytes (n + 1) v).reverse = byteOf v n :: (lowBytes n v).reverse := by
    simp [lowBytes_eq, List.range_succ]
  rw [swapBytes, bytes, wordOfBytes_cons h]

theorem swapBytes_two (v : Word) : swapBytes 2 v = (byteOf v 0 ++ byteOf v 1).setWidth 64 := by
  have one : swapBytes 1 v = (byteOf v 0).setWidth 64 := by simp [swapBytes, lowBytes_eq, wordOfBytes]
  exact swapBytes_succ one

theorem swapBytes_four (v : Word) :
    swapBytes 4 v = (byteOf v 0 ++ byteOf v 1 ++ byteOf v 2 ++ byteOf v 3).setWidth 64 :=
  swapBytes_succ (swapBytes_succ (swapBytes_two v))

theorem swapBytes_eight (v : Word) :
    swapBytes 8 v = (byteOf v 0 ++ byteOf v 1 ++ byteOf v 2 ++ byteOf v 3 ++ byteOf v 4 ++ byteOf v 5 ++ byteOf v 6 ++
      byteOf v 7).setWidth 64 :=
  swapBytes_succ (swapBytes_succ (swapBytes_succ (swapBytes_succ (swapBytes_four v))))

/-! ## The conversion (R181) -/

theorem convertOrder_little (host : ByteOrder) (n : Nat) (v : Word) :
    convertOrder .little host n v = if host = .big then swapBytes n v else truncTo n v := by
  cases host <;> rfl

theorem convertOrder_big (host : ByteOrder) (n : Nat) (v : Word) :
    convertOrder .big host n v = if host = .little then swapBytes n v else truncTo n v := by
  cases host <;> rfl

/-- The bytes of a number's bytes are those bytes. -/
theorem natBytes_natOfBytes (bs : List Byte) : natBytes bs.length (natOfBytes bs) = bs := by
  induction bs with
  | nil => rfl
  | cons b bs ih =>
    have low : BitVec.ofNat 8 (b.toNat + 256 * natOfBytes bs) = b := by
      apply BitVec.eq_of_toNat_eq
      rw [BitVec.toNat_ofNat]
      omega
    have rest : (b.toNat + 256 * natOfBytes bs) / 256 = natOfBytes bs := by omega
    rw [List.length_cons, natOfBytes, natBytes, low, rest, ih]

/-- A word made of at most eight bytes has those bytes. -/
theorem lowBytes_wordOfBytes {n : Nat} (hn : n ≤ 8) {bs : List Byte} (h : bs.length = n) :
    lowBytes n (wordOfBytes bs) = bs := by
  subst h
  rw [← natBytes_toNat, (toNat_wordOfBytes bs hn).1, natBytes_natOfBytes]

theorem truncTo_truncTo {n : Nat} (hn : n ≤ 8) (v : Word) : truncTo n (truncTo n v) = truncTo n v := by
  rw [truncTo, truncTo, lowBytes_wordOfBytes hn (lowBytes_length n v)]

/-- To reverse the bytes twice leaves them in order, and the bits above them zero. -/
theorem swapBytes_swapBytes {n : Nat} (hn : n ≤ 8) (v : Word) : swapBytes n (swapBytes n v) = truncTo n v := by
  have bytes : lowBytes n (swapBytes n v) = (lowBytes n v).reverse := lowBytes_wordOfBytes hn (by simp)
  rw [swapBytes, bytes, List.reverse_reverse, truncTo]

theorem convertOrder_convertOrder (target host : ByteOrder) {n : Nat} (hn : n ≤ 8) (v : Word) :
    convertOrder target host n (convertOrder target host n v) = truncTo n v := by
  simp only [convertOrder]
  split
  · exact truncTo_truncTo hn v
  · exact swapBytes_swapBytes hn v

/-! ## The instructions of BPF_END (R183 to R188) -/

/-- The rule of a byte swap, from the host's byte order that calls for a reversal, the slices that make it, the encoding
and the meaning. -/
theorem byteSwap_rule {target other : ByteOrder} {n : Nat} {swapped : Word → Word} (hn : n ≤ 8)
    (hconvert : ∀ host n v, convertOrder target host n v = if host = other then swapBytes n v else truncTo n v)
    (hswapped : ∀ v, swapBytes n v = swapped v) {mk : RegNum → Instr} {opcode : BitVec 8} {selector : BitVec 32}
    (hencode : ∀ dst, EncodesAs (mk dst) ⟨opcode, regField dst, 0, 0, selector⟩ (writableReg dst))
    (hexec : ∀ dst s, exec (mk dst) s = unary (convertOrder target s.cfg.hostEndian n) dst s) :
    UnaryRule mk opcode selector fun c a => if c.hostEndian = other then swapped a else (a.setWidth (8 * n)).setWidth 64 :=
  unaryRule_of_exec (fun c => convertOrder target c.hostEndian n) hencode hexec fun c a => by
    rw [hconvert, hswapped, truncTo_eq_setWidth hn]

/-- Settles O6: each of the six is the conversion to its order, which reverses the bytes on a host of the other one. -/
theorem byteSwapForms : Obligations.ByteSwapForms :=
  ⟨byteSwap_rule (n := 2) (by decide) convertOrder_little swapBytes_two (fun _ => ⟨rfl, rfl⟩) fun _ _ => rfl,
    byteSwap_rule (n := 4) (by decide) convertOrder_little swapBytes_four (fun _ => ⟨rfl, rfl⟩) fun _ _ => rfl,
    byteSwap_rule (n := 8) (by decide) convertOrder_little swapBytes_eight (fun _ => ⟨rfl, rfl⟩) fun _ _ => rfl,
    byteSwap_rule (n := 2) (by decide) convertOrder_big swapBytes_two (fun _ => ⟨rfl, rfl⟩) fun _ _ => rfl,
    byteSwap_rule (n := 4) (by decide) convertOrder_big swapBytes_four (fun _ => ⟨rfl, rfl⟩) fun _ _ => rfl,
    byteSwap_rule (n := 8) (by decide) convertOrder_big swapBytes_eight (fun _ => ⟨rfl, rfl⟩) fun _ _ => rfl⟩

/-! ## Two byte swaps in a row (R181) -/

/-- What an instruction on one register leaves in x[dst], where it held a value. -/
theorem unary_next_dst {f : Word → Word} {dst : RegNum} {s t : State} (hdst : s.x[dst].written = true)
    (h : unary f dst s = .next t) : t.cfg = s.cfg ∧ t.x[dst] = Reg.of (f s.x[dst].value) := by
  rw [unary_eq, draw_of_written s dst hdst] at h
  split_ifs at h
  cases h
  exact ⟨rfl, set_self s.x dst _⟩

/-- Settles O48: both runs are the same conversion, since no instruction changes the host's byte order, and it is its own
inverse on the low bytes. -/
theorem byteSwapTwice : Obligations.ByteSwapTwice := by
  intro i n dst s t u hswap hdst hfirst hsecond
  have meaning : n ≤ 8 ∧ ∃ target, ∀ s, exec i s = unary (convertOrder target s.cfg.hostEndian n) dst s := by
    simp only [List.mem_cons, Prod.mk.injEq, List.not_mem_nil, or_false] at hswap
    rcases hswap with ⟨rfl, rfl⟩ | ⟨rfl, rfl⟩ | ⟨rfl, rfl⟩ | ⟨rfl, rfl⟩ | ⟨rfl, rfl⟩ | ⟨rfl, rfl⟩ <;>
      exact ⟨by decide, _, fun _ => rfl⟩
  obtain ⟨hn, target, hexec⟩ := meaning
  rw [hexec] at hfirst hsecond
  obtain ⟨hcfg, ht⟩ := unary_next_dst hdst hfirst
  obtain ⟨-, hu⟩ := unary_next_dst (congrArg Reg.written ht) hsecond
  calc u.x[dst].value.toNat
      = (convertOrder target s.cfg.hostEndian n (convertOrder target s.cfg.hostEndian n s.x[dst].value)).toNat := by
        rw [hu, ht, hcfg]
        rfl
    _ = (truncTo n s.x[dst].value).toNat := by rw [convertOrder_convertOrder target _ hn]
    _ = s.x[dst].value.toNat % 2 ^ (8 * n) := toNat_truncTo n _ hn

end Sys2Proof.Machine

/-! Jumps (`43_jump64.md`): what the conditions say in the library's words, the rules of the jump formats from one equation for
each shared operation, and the instructions of class BPF_JMP. -/

namespace Sys2Proof.Machine

/-! ## The conditions, for every width (R192) -/

section
variable {w : Nat} (a b : BitVec w)

theorem condHolds_gt : condHolds .gt a b = b.ult a := rfl

theorem condHolds_ge : condHolds .ge a b = b.ule a := rfl

theorem condHolds_sgt : condHolds .sgt a b = b.slt a := rfl

theorem condHolds_sge : condHolds .sge a b = b.sle a := rfl

theorem condHolds_lt : condHolds .lt a b = a.ult b := rfl

theorem condHolds_le : condHolds .le a b = a.ule b := rfl

theorem condHolds_slt : condHolds .slt a b = a.slt b := rfl

theorem condHolds_sle : condHolds .sle a b = a.sle b := rfl

end

/-! ## Where a jump goes (R191, R193) -/

/-- What an instruction does that, after its reads, jumps or moves on: it changes the pc and nothing else. -/
theorem AfterReads.goesTo {s u : State} (h : AfterReads s u) (taken : Bool) (disp : Int) :
    GoesTo s (branch u taken disp) (if taken = true then s.pc + 1 + disp else s.pc + 1) u.fresh where
  pc := by
    have start : u.pc = s.pc := by rw [h]
    rw [branch_pc, start]
    cases taken with
    | false => exact Int.add_zero _
    | true => rfl
  regs := h.x
  memory a := by rw [branch_mem, h]
  stored := by rw [branch_mem, h]
  fresh := rfl
  rest := h.sameRest.trans ⟨rfl, rfl, rfl, rfl, rfl⟩

/-! ## The rules of the jump formats (R98, R192) -/

/-- A rule of format `JCC_K` holds of an instruction with its encoding that reads x[dst] and branches. -/
theorem jumpImmRule_of_exec {mk : RegNum → BitVec 32 → BitVec 16 → Instr} {opcode : BitVec 8}
    {taken : Word → BitVec 32 → Bool}
    (hencode : ∀ dst imm off, EncodesAs (mk dst imm off) ⟨opcode, regField dst, 0, off, imm⟩ true)
    (hexec : ∀ dst imm off s, exec (mk dst imm off) s =
      if canRead s dst = true then .next (branch (draw s dst).2 (taken (draw s dst).1 imm) (offsetSlots off))
      else .fault (.unwrittenRegister s.pc dst)) :
    JumpImmRule mk opcode taken := by
  intro dst imm off
  refine ⟨(hencode dst imm off).readsFrom, fun s => ⟨fun hr => ?_, fun hr => ?_⟩⟩
  · simp [hexec, hr]
  · exact ⟨_, by rw [hexec, if_pos hr], ((AfterReads.refl s).draw dst).goesTo _ (offsetSlots off)⟩

/-- A rule of format `JCC_X` holds of an instruction with its encoding that reads both registers and branches. -/
theorem jumpRegRule_of_exec {mk : RegNum → RegNum → BitVec 16 → Instr} {opcode : BitVec 8} {taken : Word → Word → Bool}
    (hencode : ∀ dst src off, EncodesAs (mk dst src off) ⟨opcode, regField dst, regField src, off, 0⟩ true)
    (hexec : ∀ dst src off s, exec (mk dst src off) s =
      if canRead s dst = true ∧ canRead s src = true then
        .next (branch (draw (draw s dst).2 src).2 (taken (draw s dst).1 (draw (draw s dst).2 src).1) (offsetSlots off))
      else .fault (.unwrittenRegister s.pc (lowUnreadable s dst src))) :
    JumpRegRule mk opcode taken := by
  intro dst src off
  refine ⟨(hencode dst src off).readsFrom, fun s => ⟨fun hr => ?_, fun hd hs => ?_⟩⟩
  · rw [hexec, if_neg hr]
  · exact ⟨_, by rw [hexec, if_pos ⟨hd, hs⟩],
      (((AfterReads.refl s).draw dst).draw src).goesTo _ (offsetSlots off)⟩

/-- The rule of a 64-bit jump with an immediate, from its encoding, its meaning and what its condition says of the
sign-extended immediate. -/
theorem jump64K_rule (c : Cond) {mk : RegNum → BitVec 32 → BitVec 16 → Instr} {opcode : BitVec 8}
    {taken : Word → BitVec 32 → Bool}
    (hencode : ∀ dst imm off, EncodesAs (mk dst imm off) ⟨opcode, regField dst, 0, off, imm⟩ true)
    (hexec : ∀ dst imm off s, exec (mk dst imm off) s = jump64K c dst imm off s)
    (htaken : ∀ a imm, condHolds c a (sext64 imm) = taken a imm) : JumpImmRule mk opcode taken :=
  jumpImmRule_of_exec hencode fun dst imm off s => by rw [hexec, jump64K_eq, htaken]

/-- The rule of a 64-bit jump with a register, from its encoding, its meaning and what its condition says. -/
theorem jump64X_rule (c : Cond) {mk : RegNum → RegNum → BitVec 16 → Instr} {opcode : BitVec 8}
    {taken : Word → Word → Bool}
    (hencode : ∀ dst src off, EncodesAs (mk dst src off) ⟨opcode, regField dst, regField src, off, 0⟩ true)
    (hexec : ∀ dst src off s, exec (mk dst src off) s = jump64X c dst src off s)
    (htaken : ∀ a b, condHolds c a b = taken a b) : JumpRegRule mk opcode taken :=
  jumpRegRule_of_exec hencode fun dst src off s => by rw [hexec, jump64X_eq, htaken]

/-! ## The instructions of class BPF_JMP (R194 to R216) -/

/-- Settles O7: JA is a branch that reads nothing and is always taken. -/
theorem jumpAlways : Obligations.JumpAlways :=
  fun off => ⟨EncodesAs.readsFrom ⟨rfl, rfl⟩, fun s => ⟨_, rfl, (AfterReads.refl s).goesTo true (offsetSlots off)⟩⟩

/-- Settles O8: each instruction runs `jump64K` with its condition, on the sign-extended immediate. -/
theorem jump64ImmediateForms : Obligations.Jump64ImmediateForms :=
  ⟨jump64K_rule .eq (fun _ _ _ => ⟨rfl, rfl⟩) (fun _ _ _ _ => rfl) fun _ _ => rfl,
    jump64K_rule .gt (fun _ _ _ => ⟨rfl, rfl⟩) (fun _ _ _ _ => rfl) fun a imm => condHolds_gt a (sext64 imm),
    jump64K_rule .ge (fun _ _ _ => ⟨rfl, rfl⟩) (fun _ _ _ _ => rfl) fun a imm => condHolds_ge a (sext64 imm),
    jump64K_rule .set (fun _ _ _ => ⟨rfl, rfl⟩) (fun _ _ _ _ => rfl) fun _ _ => rfl,
    jump64K_rule .ne (fun _ _ _ => ⟨rfl, rfl⟩) (fun _ _ _ _ => rfl) fun _ _ => rfl,
    jump64K_rule .sgt (fun _ _ _ => ⟨rfl, rfl⟩) (fun _ _ _ _ => rfl) fun a imm => condHolds_sgt a (sext64 imm),
    jump64K_rule .sge (fun _ _ _ => ⟨rfl, rfl⟩) (fun _ _ _ _ => rfl) fun a imm => condHolds_sge a (sext64 imm),
    jump64K_rule .lt (fun _ _ _ => ⟨rfl, rfl⟩) (fun _ _ _ _ => rfl) fun a imm => condHolds_lt a (sext64 imm),
    jump64K_rule .le (fun _ _ _ => ⟨rfl, rfl⟩) (fun _ _ _ _ => rfl) fun a imm => condHolds_le a (sext64 imm),
    jump64K_rule .slt (fun _ _ _ => ⟨rfl, rfl⟩) (fun _ _ _ _ => rfl) fun a imm => condHolds_slt a (sext64 imm),
    jump64K_rule .sle (fun _ _ _ => ⟨rfl, rfl⟩) (fun _ _ _ _ => rfl) fun a imm => condHolds_sle a (sext64 imm)⟩

/-- Settles O9: each instruction runs `jump64X` with its condition. -/
theorem jump64RegisterForms : Obligations.Jump64RegisterForms :=
  ⟨jump64X_rule .eq (fun _ _ _ => ⟨rfl, rfl⟩) (fun _ _ _ _ => rfl) fun _ _ => rfl,
    jump64X_rule .gt (fun _ _ _ => ⟨rfl, rfl⟩) (fun _ _ _ _ => rfl) condHolds_gt,
    jump64X_rule .ge (fun _ _ _ => ⟨rfl, rfl⟩) (fun _ _ _ _ => rfl) condHolds_ge,
    jump64X_rule .set (fun _ _ _ => ⟨rfl, rfl⟩) (fun _ _ _ _ => rfl) fun _ _ => rfl,
    jump64X_rule .ne (fun _ _ _ => ⟨rfl, rfl⟩) (fun _ _ _ _ => rfl) fun _ _ => rfl,
    jump64X_rule .sgt (fun _ _ _ => ⟨rfl, rfl⟩) (fun _ _ _ _ => rfl) condHolds_sgt,
    jump64X_rule .sge (fun _ _ _ => ⟨rfl, rfl⟩) (fun _ _ _ _ => rfl) condHolds_sge,
    jump64X_rule .lt (fun _ _ _ => ⟨rfl, rfl⟩) (fun _ _ _ _ => rfl) condHolds_lt,
    jump64X_rule .le (fun _ _ _ => ⟨rfl, rfl⟩) (fun _ _ _ _ => rfl) condHolds_le,
    jump64X_rule .slt (fun _ _ _ => ⟨rfl, rfl⟩) (fun _ _ _ _ => rfl) condHolds_slt,
    jump64X_rule .sle (fun _ _ _ => ⟨rfl, rfl⟩) (fun _ _ _ _ => rfl) condHolds_sle⟩

end Sys2Proof.Machine

/-! Jumps on 32-bit operands (`44_jump32.md`): the rules of the jump formats for a condition on bits 31:0 of the registers, and
the instructions of class BPF_JMP32. -/

namespace Sys2Proof.Machine

/-! ## A condition on bits 31:0 (R220) -/

/-- The rule of a 32-bit jump with an immediate, from its encoding, its meaning and what its condition says of the low half of
x[dst] and the immediate as it stands, with no extension. -/
theorem jump32K_rule (c : Cond) {mk : RegNum → BitVec 32 → BitVec 16 → Instr} {opcode : BitVec 8}
    {taken : Word → BitVec 32 → Bool}
    (hencode : ∀ dst imm off, EncodesAs (mk dst imm off) ⟨opcode, regField dst, 0, off, imm⟩ true)
    (hexec : ∀ dst imm off s, exec (mk dst imm off) s = jump32K c dst imm off s)
    (htaken : ∀ a imm, condHolds c (lo32 a) imm = taken a imm) : JumpImmRule mk opcode taken :=
  jumpImmRule_of_exec hencode fun dst imm off s => by rw [hexec, jump32K_eq, htaken]

/-- The rule of a 32-bit jump with a register, from its encoding, its meaning and what its condition says of the low halves of
both registers. -/
theorem jump32X_rule (c : Cond) {mk : RegNum → RegNum → BitVec 16 → Instr} {opcode : BitVec 8}
    {taken : Word → Word → Bool}
    (hencode : ∀ dst src off, EncodesAs (mk dst src off) ⟨opcode, regField dst, regField src, off, 0⟩ true)
    (hexec : ∀ dst src off s, exec (mk dst src off) s = jump32X c dst src off s)
    (htaken : ∀ a b, condHolds c (lo32 a) (lo32 b) = taken a b) : JumpRegRule mk opcode taken :=
  jumpRegRule_of_exec hencode fun dst src off s => by rw [hexec, jump32X_eq, htaken]

/-! ## The instructions of class BPF_JMP32 (R223 to R244) -/

/-- Settles O10: each instruction runs `jump32K` with its condition, on the low half of x[dst] and the immediate. -/
theorem jump32ImmediateForms : Obligations.Jump32ImmediateForms :=
  ⟨jump32K_rule .eq (fun _ _ _ => ⟨rfl, rfl⟩) (fun _ _ _ _ => rfl) fun _ _ => rfl,
    jump32K_rule .gt (fun _ _ _ => ⟨rfl, rfl⟩) (fun _ _ _ _ => rfl) fun a imm => condHolds_gt (lo32 a) imm,
    jump32K_rule .ge (fun _ _ _ => ⟨rfl, rfl⟩) (fun _ _ _ _ => rfl) fun a imm => condHolds_ge (lo32 a) imm,
    jump32K_rule .set (fun _ _ _ => ⟨rfl, rfl⟩) (fun _ _ _ _ => rfl) fun _ _ => rfl,
    jump32K_rule .ne (fun _ _ _ => ⟨rfl, rfl⟩) (fun _ _ _ _ => rfl) fun _ _ => rfl,
    jump32K_rule .sgt (fun _ _ _ => ⟨rfl, rfl⟩) (fun _ _ _ _ => rfl) fun a imm => condHolds_sgt (lo32 a) imm,
    jump32K_rule .sge (fun _ _ _ => ⟨rfl, rfl⟩) (fun _ _ _ _ => rfl) fun a imm => condHolds_sge (lo32 a) imm,
    jump32K_rule .lt (fun _ _ _ => ⟨rfl, rfl⟩) (fun _ _ _ _ => rfl) fun a imm => condHolds_lt (lo32 a) imm,
    jump32K_rule .le (fun _ _ _ => ⟨rfl, rfl⟩) (fun _ _ _ _ => rfl) fun a imm => condHolds_le (lo32 a) imm,
    jump32K_rule .slt (fun _ _ _ => ⟨rfl, rfl⟩) (fun _ _ _ _ => rfl) fun a imm => condHolds_slt (lo32 a) imm,
    jump32K_rule .sle (fun _ _ _ => ⟨rfl, rfl⟩) (fun _ _ _ _ => rfl) fun a imm => condHolds_sle (lo32 a) imm⟩

/-- Settles O11: each instruction runs `jump32X` with its condition, on the low halves of x[dst] and x[src]. -/
theorem jump32RegisterForms : Obligations.Jump32RegisterForms :=
  ⟨jump32X_rule .eq (fun _ _ _ => ⟨rfl, rfl⟩) (fun _ _ _ _ => rfl) fun _ _ => rfl,
    jump32X_rule .gt (fun _ _ _ => ⟨rfl, rfl⟩) (fun _ _ _ _ => rfl) fun a b => condHolds_gt (lo32 a) (lo32 b),
    jump32X_rule .ge (fun _ _ _ => ⟨rfl, rfl⟩) (fun _ _ _ _ => rfl) fun a b => condHolds_ge (lo32 a) (lo32 b),
    jump32X_rule .set (fun _ _ _ => ⟨rfl, rfl⟩) (fun _ _ _ _ => rfl) fun _ _ => rfl,
    jump32X_rule .ne (fun _ _ _ => ⟨rfl, rfl⟩) (fun _ _ _ _ => rfl) fun _ _ => rfl,
    jump32X_rule .sgt (fun _ _ _ => ⟨rfl, rfl⟩) (fun _ _ _ _ => rfl) fun a b => condHolds_sgt (lo32 a) (lo32 b),
    jump32X_rule .sge (fun _ _ _ => ⟨rfl, rfl⟩) (fun _ _ _ _ => rfl) fun a b => condHolds_sge (lo32 a) (lo32 b),
    jump32X_rule .lt (fun _ _ _ => ⟨rfl, rfl⟩) (fun _ _ _ _ => rfl) fun a b => condHolds_lt (lo32 a) (lo32 b),
    jump32X_rule .le (fun _ _ _ => ⟨rfl, rfl⟩) (fun _ _ _ _ => rfl) fun a b => condHolds_le (lo32 a) (lo32 b),
    jump32X_rule .slt (fun _ _ _ => ⟨rfl, rfl⟩) (fun _ _ _ _ => rfl) fun a b => condHolds_slt (lo32 a) (lo32 b),
    jump32X_rule .sle (fun _ _ _ => ⟨rfl, rfl⟩) (fun _ _ _ _ => rfl) fun a b => condHolds_sle (lo32 a) (lo32 b)⟩

end Sys2Proof.Machine

/-! Calls and the return (`45_call_exit.md`): the registers, the call stack and the bytes that they leave, the rules of the three calls
and of EXIT, the outcomes of described functions, and the invariant that every step keeps. -/

namespace Sys2Proof.Machine

/-! ## The registers that calls and EXIT change (R24, R248, R251, R253) -/

/-- R1 to R5 lose their values and no other register changes. -/
theorem dropArgs_getElem (s : State) (r : RegNum) :
    (dropArgs s).x[r] = if 1 ≤ r ∧ r ≤ 5 then Reg.none else s.x[r] := by
  rw [dropArgs_x]
  fin_cases r <;> simp

/-- A function of the runtime returns in x[0] and keeps R6 to R10. -/
theorem afterCall_getElem (u : State) (o : CallOutcome) (r : RegNum) :
    (afterCall u o).x[r] = if r = 0 then Reg.of o.ret else if r ≤ 5 then Reg.none else u.x[r] := by
  have regs : (afterCall u o).x = (dropArgs u).x.set (0 : RegNum) (Reg.of o.ret) := rfl
  rw [regs]
  by_cases h0 : r = 0
  · rw [if_pos h0, h0]
    exact set_self (dropArgs u).x 0 (Reg.of o.ret)
  · have above : 1 ≤ r := Fin.one_le_of_ne_zero h0
    rw [if_neg h0, set_other (dropArgs u).x 0 r _ h0, dropArgs_getElem]
    simp only [above, true_and]

/-- The callee has the arguments and x[0] of the caller, a frame pointer of its own, and no value in R6 to R9. -/
theorem enterFunction_getElem (s : State) (fp : Word) (disp : Int) (r : RegNum) :
    (enterFunction s fp disp).x[r] =
      if r = 10 then Reg.of (fp - 512) else if 6 ≤ r then Reg.none else s.x[r] := by
  rw [enterFunction_x]
  fin_cases r <;> simp

/-- The register that a record saves (R32): R6 to R10, by number. -/
def Frame.saved (f : Frame) (r : RegNum) : Reg :=
  if r = 6 then f.s6 else if r = 7 then f.s7 else if r = 8 then f.s8 else if r = 9 then f.s9 else f.s10

/-- A return restores what the record saved, and keeps x[0] alone of the other registers. -/
theorem leaveFunction_getElem (s : State) (f : Frame) (rest : List Frame) (r : RegNum) :
    (leaveFunction s f rest).x[r] = if 6 ≤ r then f.saved r else if 1 ≤ r then Reg.none else s.x[r] := by
  rw [leaveFunction_x, dropArgs_x]
  fin_cases r <;> simp [Frame.saved]

theorem leaveFunction_saved (s : State) (f : Frame) (rest : List Frame) {r : RegNum} (h : 6 ≤ r) :
    (leaveFunction s f rest).x[r] = f.saved r := by
  rw [leaveFunction_getElem, if_pos h]

theorem leaveFunction_result (s : State) (f : Frame) (rest : List Frame) : (leaveFunction s f rest).x[0] = s.x[0] :=
  leaveFunction_getElem s f rest 0

theorem frameOf_saved (s : State) {r : RegNum} (h : 6 ≤ r) : (frameOf s).saved r = s.x[r] := by
  revert h
  fin_cases r <;> simp [Frame.saved, frameOf]

/-! ## The bytes that a function of the runtime writes (R247) -/

/-- After writes in order an address holds what the last one to it gave, or what it held before. -/
theorem lookupByte_storeEach (m : Memory) (ws : List (Word × Byte)) (a : Nat) :
    lookupByte (storeEach m ws) a =
      ((ws.reverse.find? fun w => w.1.toNat == a).map Prod.snd).or (lookupByte m a) := by
  induction ws generalizing m with
  | nil => rfl
  | cons w ws ih =>
    rw [storeEach, ih, List.reverse_cons, List.find?_append]
    by_cases h : w.1.toNat = a
    · subst h
      rw [lookupByte_storeByte_self]
      cases ws.reverse.find? fun v => v.1.toNat == w.1.toNat <;> simp
    · rw [lookupByte_storeByte_other _ _ _ _ (Ne.symm h)]
      simp [h]

/-- The bytes after a call, in the words of its rule. -/
theorem byteAt_storeEach (s : State) (ws : List (Word × Byte)) (a : Nat) :
    byteAt (storeEach s.mem ws) a = byteAfterWrites s ws a := by
  rw [byteAt, lookupByte_storeEach, byteAfterWrites]
  cases ws.reverse.find? fun w => w.1.toNat == a <;> rfl

/-! ## Calls of helper and runtime functions (R250, R252) -/

section
variable {space : CallSpace} {id : BitVec 32} {s : State} {f : FunDesc}

theorem callFunction_of_unknown (h : (functionsOf s.cfg space).lookup id = none) :
    callFunction space id s = .fault (.unknownFunction s.pc space id) := by
  rcases callFunction_cases space id s with ⟨-, e⟩ | ⟨f, hf, -⟩
  · exact e
  · simp [h] at hf

theorem callFunction_of_unreadable (hf : (functionsOf s.cfg space).lookup id = some f)
    (h : ∃ r ∈ argRegs f.arity, canRead s r = false) :
    ∃ r ∈ argRegs f.arity, canRead s r = false ∧ (∀ q ∈ argRegs f.arity, canRead s q = false → r ≤ q) ∧
      callFunction space id s = .fault (.unwrittenRegister s.pc r) := by
  rcases callFunction_cases space id s with ⟨hnone, -⟩ | ⟨g, hg, fault | ⟨readable, -⟩⟩
  · simp [hf] at hnone
  · cases hf.symm.trans hg
    exact fault
  · cases hf.symm.trans hg
    obtain ⟨r, hr, hunreadable⟩ := h
    simp [readable r hr] at hunreadable

theorem callFunction_of_readable (hf : (functionsOf s.cfg space).lookup id = some f)
    (h : ∀ r ∈ argRegs f.arity, canRead s r = true) {o : CallOutcome}
    (ho : o = functionOutcome s.cfg f space id (drawAll s (argRegs f.arity)).1 s.mem
      (drawAll s (argRegs f.arity)).2.fresh) :
    callFunction space id s =
      if f.canFail = true ∧ o.fails = true then .fault (.helperFault s.pc space id)
      else .next (afterCall (drawAll s (argRegs f.arity)).2 o) := by
  rcases callFunction_cases space id s with ⟨hnone, -⟩ | ⟨g, hg, ⟨r, hr, hunreadable, -⟩ | ⟨-, e⟩⟩
  · simp [hf] at hnone
  · cases hf.symm.trans hg
    simp [h r hr] at hunreadable
  · cases hf.symm.trans hg
    simp only [drawAll_mem, ← ho, Bool.and_eq_true] at e
    exact e

end

/-- The rule of a call of a space of functions, from its encoding and its meaning. -/
theorem callFunction_rule {mk : BitVec 32 → Instr} {space : CallSpace} {selector : BitVec 4}
    (hencode : ∀ id, EncodesAs (mk id) ⟨0x85, 0, selector, 0, id⟩ true)
    (hexec : ∀ id s, exec (mk id) s = callFunction space id s) : FunctionCallRule mk space selector := by
  intro id
  refine ⟨(hencode id).readsFrom, fun s => ⟨fun hnone => ?_, fun f hf => ⟨fun hunreadable => ?_,
    fun hreadable o ho => ⟨fun hcan hfails => ?_, fun hreturns => ?_⟩⟩⟩⟩
  · rw [hexec, callFunction_of_unknown hnone]
  · rw [hexec]
    exact callFunction_of_unreadable hf hunreadable
  · rw [hexec, callFunction_of_readable hf hreadable ho, if_pos ⟨hcan, hfails⟩]
  · have reads : AfterReads s (drawAll s (argRegs f.arity)).2 := .drawAll (.refl s) _
    refine ⟨_, by rw [hexec, callFunction_of_readable hf hreadable ho, if_neg hreturns], ?_, fun r h1 h5 => ?_,
      fun r h6 => ?_, fun a => ?_, ?_, (OrdinaryEffect.call reads o).sameRest⟩
    · exact afterCall_getElem _ o 0
    · have notZero : r ≠ 0 := ne_of_gt (lt_of_lt_of_le (by decide) h1)
      rw [afterCall_getElem, if_neg notZero, if_pos h5]
    · have notZero : r ≠ 0 := ne_of_gt (lt_of_lt_of_le (by decide) h6)
      have above : ¬ r ≤ 5 := not_le.mpr (lt_of_lt_of_le (by decide) h6)
      rw [afterCall_getElem, if_neg notZero, if_neg above, reads.x]
    · rw [← byteAt_storeEach, ← drawAll_mem s (argRegs f.arity)]
      rfl
    · rw [← drawAll_pc s (argRegs f.arity)]
      rfl

/-- Settles O12: both instructions run `callFunction`, each on its own space. -/
theorem functionCalls : Obligations.FunctionCalls :=
  ⟨callFunction_rule (fun _ => ⟨rfl, rfl⟩) fun _ _ => rfl, callFunction_rule (fun _ => ⟨rfl, rfl⟩) fun _ _ => rfl⟩

/-! ## Local calls (R251) -/

/-- A local call whose `offset` is in order, under either value of `LOCAL_CALL_DISP`. -/
theorem exec_callLocal {off : BitVec 16} {imm : BitVec 32} {s : State}
    (h : ¬ (s.cfg.localCallDisp = .imm ∧ off ≠ 0)) :
    exec (.callLocal off imm) s =
      callEbpf (match s.cfg.localCallDisp with | .offset => off.toInt | .imm => imm.toInt) s := by
  change execCallLocal off imm s = _
  rw [execCallLocal]
  cases hdisp : s.cfg.localCallDisp with
  | offset => rfl
  | imm => exact if_pos (not_not.mp fun hoff => h ⟨hdisp, hoff⟩)

theorem exec_callLocal_nonzero_offset {off : BitVec 16} (imm : BitVec 32) {s : State}
    (hdisp : s.cfg.localCallDisp = .imm) (hoff : off ≠ 0) :
    exec (.callLocal off imm) s = .fault (illegal s .nonzeroUnusedField) := by
  change execCallLocal off imm s = _
  rw [execCallLocal, hdisp]
  exact if_neg hoff

/-- The record pushed does not depend on the read of R10. -/
theorem frameOf_draw (s : State) (r : RegNum) : frameOf (draw s r).2 = frameOf s := by
  rw [frameOf, draw_pc, draw_x]
  rfl

theorem enterFunction_draw_pc (s : State) (r : RegNum) (fp : Word) (disp : Int) :
    (enterFunction (draw s r).2 fp disp).pc = s.pc + 1 + disp := by
  rw [enterFunction_pc, draw_pc]

/-- Settles O13: the checks in their order, and then `enterFunction` on the value that R10 reads as. -/
theorem localCall : Obligations.LocalCall := by
  intro off imm
  refine ⟨EncodesAs.readsFrom ⟨rfl, rfl⟩, fun s => ⟨exec_callLocal_nonzero_offset imm, fun hoff => ?_⟩⟩
  rw [exec_callLocal hoff, callEbpf_eq]
  refine ⟨fun hdeep => if_neg (not_lt.mpr hdeep), fun hdepth hr => ?_, fun hdepth hr => ?_⟩
  · rw [if_pos hdepth, if_neg (Bool.eq_false_iff.mp hr)]
  · refine ⟨_, by rw [if_pos hdepth, if_pos hr], ?_, fun r h6 h9 => ?_, ?_, fun r h5 => ?_, ?_, fun a => ?_, ?_⟩
    · rw [enterFunction_frames, frameOf_draw, draw_frames, frameOf]
    · have notFp : r ≠ 10 := ne_of_lt (lt_of_le_of_lt h9 (by decide))
      rw [enterFunction_getElem, if_neg notFp, if_pos h6]
    · exact enterFunction_getElem _ _ _ 10
    · have notFp : r ≠ 10 := ne_of_lt (lt_of_le_of_lt h5 (by decide))
      have below : ¬ 6 ≤ r := not_le.mpr (lt_of_le_of_lt h5 (by decide))
      rw [enterFunction_getElem, if_neg notFp, if_neg below, draw_x]
    · exact enterFunction_draw_pc s 10 _ _
    · rw [enterFunction_mem, draw_mem]
    · simp

/-- A local call that answers a next state entered the callee, whichever field holds the displacement. -/
theorem callLocal_next {off : BitVec 16} {imm : BitVec 32} {s t : State} (h : exec (.callLocal off imm) s = .next t) :
    s.frames.length + 1 < s.cfg.maxCallDepth ∧
      ∃ disp, t = enterFunction (draw s 10).2 (draw s 10).1 disp := by
  by_cases hoff : s.cfg.localCallDisp = .imm ∧ off ≠ 0
  · rw [exec_callLocal_nonzero_offset imm hoff.1 hoff.2] at h
    cases h
  · rw [exec_callLocal hoff, callEbpf_eq] at h
    split_ifs at h with hdepth hr
    cases h
    exact ⟨hdepth, _, rfl⟩

/-! ## EXIT (R253) -/

theorem exec_exit (s : State) : exec .exit s = exitFunction s := rfl

/-- With an empty call stack EXIT ends the run and changes nothing else but the count of free values (R377). -/
theorem exit_of_no_frames {s : State} (hr : canRead s 0 = true) (hframes : s.frames = []) :
    exec .exit s = .next { (draw s 0).2 with status := .ended (draw s 0).1 } := by
  rw [exec_exit, exitFunction_eq, if_pos hr, hframes]

theorem exit_of_frames {s : State} {f : Frame} {rest : List Frame} (hr : canRead s 0 = true)
    (hframes : s.frames = f :: rest) : exec .exit s = .next (leaveFunction (draw s 0).2 f rest) := by
  rw [exec_exit, exitFunction_eq, if_pos hr, hframes]

theorem exit_of_unreadable {s : State} (hr : canRead s 0 = false) :
    exec .exit s = .fault (.unwrittenRegister s.pc 0) := by
  rw [exec_exit, exitFunction_eq, if_neg (Bool.eq_false_iff.mp hr)]

/-- Settles O14: the read of x[0] comes first, and the call stack decides between the end and the return. -/
theorem exitForms : Obligations.ExitForms := by
  refine ⟨EncodesAs.readsFrom ⟨rfl, rfl⟩, fun s => ⟨exit_of_unreadable, fun hr hframes => ?_,
    fun f rest hr hframes => ?_⟩⟩
  · exact ⟨_, exit_of_no_frames hr hframes, by simp [hframes]⟩
  · have saved {r : RegNum} (h6 : 6 ≤ r) : (leaveFunction (draw s 0).2 f rest).x[r] = f.saved r :=
      leaveFunction_saved _ f rest h6
    refine ⟨_, exit_of_frames hr hframes, leaveFunction_frames _ f rest, ?_, fun r h1 h5 => ?_,
      saved (r := 6) (by decide), saved (r := 7) (by decide), saved (r := 8) (by decide), saved (r := 9) (by decide),
      saved (r := 10) (by decide), leaveFunction_pc _ f rest, ?_, fun a => ?_, ?_⟩
    · rw [leaveFunction_result, draw_x]
    · have below : ¬ 6 ≤ r := not_le.mpr (lt_of_le_of_lt h5 (by decide))
      rw [leaveFunction_getElem, if_neg below, if_pos h1]
    · rw [leaveFunction_mem, draw_mem]
    · rw [leaveFunction_mem, draw_mem]
    · simp

/-- EXIT answered a next state: the run ended, or control returned to the innermost record. -/
theorem exit_next {s t : State} (h : exec .exit s = .next t) :
    (s.frames = [] ∧ t = { (draw s 0).2 with status := .ended (draw s 0).1 }) ∨
      ∃ f rest, s.frames = f :: rest ∧ t = leaveFunction (draw s 0).2 f rest := by
  cases hr : canRead s 0 with
  | false => rw [exit_of_unreadable hr] at h; cases h
  | true =>
    cases hframes : s.frames with
    | nil => exact .inl ⟨rfl, Host.Outcome.next.inj (h.symm.trans (exit_of_no_frames hr hframes))⟩
    | cons f rest =>
      exact .inr ⟨f, rest, rfl, Host.Outcome.next.inj (h.symm.trans (exit_of_frames hr hframes))⟩

/-- Settles O44: the record that EXIT pops is the one that the call pushed. -/
theorem callThenExit : Obligations.CallThenExit := by
  intro s t u v off imm hcall hframes hexit
  obtain ⟨-, disp, rfl⟩ := callLocal_next hcall
  rw [enterFunction_frames, frameOf_draw, draw_frames] at hframes
  obtain ⟨hempty, -⟩ | ⟨f, rest, hpushed, rfl⟩ := exit_next hexit
  · rw [hempty] at hframes
    cases hframes
  · cases hpushed.symm.trans hframes
    refine ⟨leaveFunction_pc _ _ _, leaveFunction_frames _ _ _, ?_, ?_, fun r h6 => ?_⟩
    · rw [leaveFunction_result, draw_x]
    · rw [leaveFunction_mem, draw_mem]
    · rw [leaveFunction_saved _ _ _ h6, frameOf_saved s h6]

/-! ## The outcomes of described functions (R247) -/

/-- A case of a well-formed description allows some outcome. -/
theorem outcomes_ne_nil {f : FunDesc} (hwf : f.wf = true) {k : FunCase} (hk : k ∈ f.cases) : k.outcomes ≠ [] := by
  have fields := List.all_eq_true.mp hwf k hk
  simp only [Bool.and_eq_true, Bool.not_eq_true', List.isEmpty_eq_false_iff] at fields
  obtain ⟨⟨-, nonempty⟩, -⟩ := fields
  exact nonempty

section
variable {c : Config} {f : FunDesc} (space : CallSpace) (id : BitVec 32) {args : List Word} {m : Memory} {choice : Nat}

theorem functionOutcome_of_case {k : FunCase} (hk : caseOf f (callInput c args m choice) = some k) :
    functionOutcome c f space id args m choice =
      pickOutcome (k.outcomes.map (outcomeOf (callInput c args m choice))) (Config.freeCall space id args m choice)
        choice := by
  simp only [functionOutcome, hk]

theorem functionOutcome_of_no_case (h : caseOf f (callInput c args m choice) = none) :
    functionOutcome c f space id args m choice = Config.freeCall space id args m choice := by
  simp only [functionOutcome, h]

end

/-- Settles O41: the case found is one of the description's, so it has outcomes to pick from. -/
theorem functionOutcomes : Obligations.FunctionOutcomes := by
  intro c f space id args m choice hwf
  refine ⟨fun k hk => ?_, fun hnone => functionOutcome_of_no_case space id ?_⟩
  · have some_outcome : k.outcomes.map (outcomeOf (callInput c args m choice)) ≠ [] := by
      rw [ne_eq, List.map_eq_nil_iff]
      exact outcomes_ne_nil hwf (List.mem_of_find?_eq_some hk)
    have picked := pickOutcome_mem _ (Config.freeCall space id args m choice) choice some_outcome
    rw [← functionOutcome_of_case space id hk] at picked
    obtain ⟨o, ho, e⟩ := List.mem_map.mp picked
    exact ⟨o, ho, e.symm⟩
  · rw [caseOf, List.find?_eq_none]
    intro k hk
    simp [hnone k hk]

/-! ## The described copy (R247, R348) -/

/-- The truth values of a description are closed under its `and`. -/
theorem funOp_and_truthWord (a b : Bool) : funOp .and (truthWord a) (truthWord b) = truthWord (a && b) := by
  cases a <;> cases b <;> rfl

/-- The low byte of the value of one byte of memory is that byte, in either byte order. -/
theorem setWidth_wordOfBytes_byte (o : ByteOrder) (m : Memory) (a : Nat) :
    (wordOfBytes (inOrder o (bytesAt m a 1))).setWidth 8 = byteAt m a := by
  have single : inOrder o (bytesAt m a 1) = [byteAt m a] := by cases o <;> rfl
  rw [single]
  simp [wordOfBytes]

/-- The one outcome of the copy function's one case. -/
def copyOutcome : OutcomeDesc :=
  ⟨.arg 2, [⟨.arg 2, .op .add (.arg 0) .index, .load 1 (.op .add (.arg 1) .index)⟩],
    .cond (.op .and (.readable (.arg 2) (.arg 1)) (.writable (.arg 2) (.arg 0))) (.const 0) (.const 1)⟩

theorem functionOutcome_copyFunction (c : Config) (space : CallSpace) (id : BitVec 32) (args : List Word) (m : Memory)
    (choice : Nat) :
    functionOutcome c copyFunction space id args m choice = outcomeOf (callInput c args m choice) copyOutcome := rfl

section
variable (c : Config) (d e n : Word) (m : Memory) (choice : Nat)

/-- The check of the pointers: the copy succeeds just where both of its accesses are admitted. -/
theorem copyOutcome_fails : (outcomeOf (callInput c [d, e, n] m choice) copyOutcome).fails =
    !(admits c e.toNat n.toNat .read && admits c d.toNat n.toNat .write) := by
  have check : funValue copyOutcome.fails (callInput c [d, e, n] m choice) =
      if funOp .and (truthWord (admits c e.toNat n.toNat .read)) (truthWord (admits c d.toNat n.toNat .write)) = 0
      then 1 else 0 := rfl
  rw [outcomeOf_fails, check, funOp_and_truthWord]
  cases (admits c e.toNat n.toNat .read && admits c d.toNat n.toNat .write) <;> rfl

theorem copyOutcome_writes : (outcomeOf (callInput c [d, e, n] m choice) copyOutcome).writes =
    (List.range n.toNat).map fun i => (d + BitVec.ofNat 64 i, byteAt m (e + BitVec.ofNat 64 i).toNat) := by
  have writes : (outcomeOf (callInput c [d, e, n] m choice) copyOutcome).writes =
      ((List.range n.toNat).map fun i => (d + BitVec.ofNat 64 i,
        (wordOfBytes (inOrder c.hostEndian (bytesAt m (e + BitVec.ofNat 64 i).toNat 1))).setWidth 8)) ++ [] := rfl
  rw [writes, List.append_nil]
  exact List.map_congr_left fun i _ => by rw [setWidth_wordOfBytes_byte]

end

/-- Settles O42, from the check, the value returned and the writes of the one outcome. -/
theorem describedCopy : Obligations.DescribedCopy := by
  intro c space id d e n m choice
  simp only [functionOutcome_copyFunction]
  refine ⟨?_, rfl, copyOutcome_writes c d e n m choice⟩
  rw [copyOutcome_fails, Bool.not_eq_false', Bool.and_eq_true]

/-! ## The invariant (R23, R32, R36, R249, R347) -/

/-- The invariant speaks of memory, the registers, the call stack and the parameters only; where the last two and R10 are as before,
memory and the registers remain to be shown. -/
theorem StateInv.of_same_stack {s t : State} (h : StateInv s) (hframes : t.frames = s.frames) (hcfg : t.cfg = s.cfg)
    (hfp : t.x[10] = s.x[10]) (hmem : t.mem.wf = true) (hregs : ∀ r : RegNum, (t.x[r]).canonical) : StateInv t where
  mem := hmem
  fp := by rw [hfp, hframes, hcfg, h.fp]
  saved := by rw [hframes, hcfg]; exact h.saved
  depth := by rw [hframes, hcfg]; exact h.depth
  regs := hregs

theorem stateInv_envTurn {s : State} (h : StateInv s) : StateInv (envTurn s) :=
  h.of_same_stack (envTurn_frames s) (envTurn_cfg s) (by rw [envTurn_x]) (wf_envTurn s h.mem)
    (by rw [envTurn_x]; exact h.regs)

/-- A read changes only the count of free values. -/
theorem stateInv_draw {s : State} (h : StateInv s) (r : RegNum) : StateInv (draw s r).2 :=
  h.of_same_stack (draw_frames s r) (draw_cfg s r) (by rw [draw_x]) (by rw [draw_mem]; exact h.mem)
    (by rw [draw_x]; exact h.regs)

/-! ### Ordinary effects -/

theorem set_canonical {x : Vector Reg 11} (h : ∀ q : RegNum, (x[q]).canonical) (r : RegNum) {v : Reg} (hv : v.canonical)
    (q : RegNum) : ((x.set r v)[q]).canonical := by
  by_cases hq : q = r
  · subst hq
    rwa [set_self]
  · rw [set_other x r q v hq]
    exact h q

theorem afterCall_canonical {u : State} (h : ∀ q : RegNum, (u.x[q]).canonical) (o : CallOutcome) (r : RegNum) :
    ((afterCall u o).x[r]).canonical := by
  rw [afterCall_getElem]
  split_ifs
  · exact of_canonical _
  · exact none_canonical
  · exact h r

theorem AfterReads.mem {s u : State} (h : AfterReads s u) : u.mem = s.mem := by rw [h]

theorem OrdinaryEffect.mem_wf {s t : State} (h : OrdinaryEffect s t) (hs : s.mem.wf = true) : t.mem.wf = true := by
  cases h with
  | register hu hr v n => rwa [advance_mem, setReg_mem, hu.mem]
  | jump hu taken disp => rwa [branch_mem, hu.mem]
  | store hu ha v => exact wf_writeValue _ _ _ v ha (by rwa [hu.mem])
  | storeAndRegister hu ha v hr w => exact wf_writeValue _ _ _ v ha (by rwa [hu.mem])
  | call hu o => exact wf_storeEach _ o.writes (by rwa [hu.mem])

theorem OrdinaryEffect.regs_canonical {s t : State} (h : OrdinaryEffect s t) (hs : ∀ r : RegNum, (s.x[r]).canonical) :
    ∀ r : RegNum, (t.x[r]).canonical := by
  cases h with
  | register hu hr v n => rw [advance_x, setReg_x, hu.x]; exact set_canonical hs _ (of_canonical v)
  | jump hu taken disp => rwa [branch_x, hu.x]
  | store hu ha v => rwa [advance_x, writeValue_x, hu.x]
  | storeAndRegister hu ha v hr w =>
    rw [advance_x, setReg_x, writeValue_x, hu.x]
    exact set_canonical hs _ (of_canonical w)
  | call hu o => exact afterCall_canonical (by rwa [hu.x]) o

theorem OrdinaryEffect.stateInv {s t : State} (h : OrdinaryEffect s t) (hs : StateInv s) : StateInv t :=
  hs.of_same_stack h.sameRest.frames h.sameRest.cfg h.fp (h.mem_wf hs.mem) (h.regs_canonical hs.regs)

/-! ### Local calls and EXIT -/

/-- The frame pointer of the next depth is 512 below (R249). -/
theorem framePointer_succ (top : Word) (depth : Nat) :
    top - 512 * BitVec.ofNat 64 depth - 512 = top - 512 * BitVec.ofNat 64 (depth + 1) := by
  rw [BitVec.ofNat_add, mul_add, sub_sub]
  rfl

/-- The frame pointer always holds a value, so to read it draws nothing. -/
theorem draw_fp {s : State} (h : StateInv s) :
    draw s 10 = (s.cfg.stackTop - 512 * BitVec.ofNat 64 s.frames.length, s) := by
  have fp : s.x[(10 : RegNum)] = Reg.of (s.cfg.stackTop - 512 * BitVec.ofNat 64 s.frames.length) := h.fp
  rw [draw_of_written s 10 (by rw [fp]; rfl), fp]
  rfl

theorem stateInv_enterFunction {s : State} (h : StateInv s) (hdepth : s.frames.length + 1 < s.cfg.maxCallDepth)
    (disp : Int) :
    StateInv (enterFunction s (s.cfg.stackTop - 512 * BitVec.ofNat 64 s.frames.length) disp) where
  mem := h.mem
  fp := (enterFunction_getElem s _ disp 10).trans (congrArg Reg.of (framePointer_succ _ _))
  saved := ⟨h.fp, h.regs 6, h.regs 7, h.regs 8, h.regs 9, h.saved⟩
  depth := .inr hdepth
  regs r := by
    rw [enterFunction_getElem]
    split_ifs
    · exact of_canonical _
    · exact none_canonical
    · exact h.regs r

theorem saved_canonical {top : Word} {f : Frame} {rest : List Frame} (h : framesOk top (f :: rest)) (r : RegNum) :
    (f.saved r).canonical := by
  obtain ⟨h10, h6, h7, h8, h9, -⟩ := h
  rw [Frame.saved]
  split_ifs
  · exact h6
  · exact h7
  · exact h8
  · exact h9
  · rw [h10]
    exact of_canonical _

theorem stateInv_leaveFunction {s : State} (h : StateInv s) {f : Frame} {rest : List Frame}
    (hframes : s.frames = f :: rest) : StateInv (leaveFunction s f rest) := by
  have saved : framesOk s.cfg.stackTop (f :: rest) := hframes ▸ h.saved
  have regs := saved_canonical saved
  obtain ⟨hfp, -, -, -, -, hrest⟩ := saved
  refine ⟨h.mem, (leaveFunction_saved s f rest (r := 10) (by decide)).trans hfp, hrest, .inr ?_, fun r => ?_⟩
  · rcases h.depth with hempty | hdepth
    · rw [hempty] at hframes
      cases hframes
    · rw [hframes, List.length_cons] at hdepth
      exact Nat.lt_of_succ_lt hdepth
  · rw [leaveFunction_getElem]
    split_ifs
    · exact regs r
    · exact none_canonical
    · exact h.regs r

/-! ### Every step -/

/-- Every instruction keeps the invariant: a local call and EXIT by what they do to the call stack, the others by their ordinary
effect. -/
theorem exec_stateInv {i : Instr} {s t : State} (hs : StateInv s) (h : exec i s = .next t) : StateInv t := by
  by_cases hcall : ∃ off imm, i = .callLocal off imm
  · obtain ⟨off, imm, rfl⟩ := hcall
    obtain ⟨hdepth, disp, rfl⟩ := callLocal_next h
    rw [draw_fp hs]
    exact stateInv_enterFunction hs hdepth disp
  by_cases hexit : i = .exit
  · subst hexit
    have reads := stateInv_draw hs 0
    obtain ⟨-, rfl⟩ | ⟨f, rest, hframes, rfl⟩ := exit_next h
    · exact reads.of_same_stack rfl rfl rfl reads.mem reads.regs
    · exact stateInv_leaveFunction reads ((draw_frames s 0).trans hframes)
  · exact (exec_effect h (fun off imm e => hcall ⟨off, imm, e⟩) hexit).stateInv hs

/-- Settles O32: the environment's turn and the instruction after it both keep the invariant. -/
theorem stepKeepsInvariant : Obligations.StepKeepsInvariant := by
  intro s t hs h
  rcases step_next_cases h with ⟨-, rfl⟩ | ⟨-, i, -, hi⟩
  · exact hs
  · exact exec_stateInv (stateInv_envTurn hs) hi

end Sys2Proof.Machine

/-! Loads and stores (`46_load_store.md`): the checks of a regular access in the words of R56 and R57, what a load finds and what a
store leaves, and the rules of the formats LDX, ST and STX. -/

namespace Sys2Proof.Machine

/-! ## The checks of an access (R56, R57) -/

/-- The admission check is the condition of R57, for the permission that the kind of access needs. -/
theorem admits_iff {c : Config} {a : Word} {n : Nat} {k : AccessKind} :
    admits c a.toNat n k = true ↔ Admitted c a n (permits · k) := by
  simp only [admits, Admitted, inRegion, Bool.and_eq_true, decide_eq_true_eq, List.any_eq_true]
  exact and_congr_right fun _ => exists_congr fun r => and_congr_right fun _ => and_comm

theorem admits_read_iff {c : Config} {a : Word} {n : Nat} :
    admits c a.toNat n .read = true ↔ Admitted c a n Region.readable := admits_iff

theorem admits_write_iff {c : Config} {a : Word} {n : Nat} :
    admits c a.toNat n .write = true ↔ Admitted c a n Region.writable := admits_iff

/-- Every access but an atomic operation has the alignment check of a regular one. -/
theorem aligned_iff_regularAligned {c : Config} {a : Word} {n : Nat} {k : AccessKind} (hk : k ≠ .atomic) :
    aligned c a.toNat n k = true ↔ RegularAligned c a n := by
  cases h : c.strictAlign <;> simp [aligned, RegularAligned, h, hk]

theorem aligned_read_iff {c : Config} {a : Word} {n : Nat} :
    aligned c a.toNat n .read = true ↔ RegularAligned c a n := aligned_iff_regularAligned (by decide)

theorem aligned_write_iff {c : Config} {a : Word} {n : Nat} :
    aligned c a.toNat n .write = true ↔ RegularAligned c a n := aligned_iff_regularAligned (by decide)

/-! ## What a load finds (R52, R60) -/

/-- The value of a regular load, indivisible or byte by byte. -/
theorem toNat_loadValue (s : State) (a : Word) {n : Nat} (hn : n ≤ 8) :
    (loadValue s a.toNat n).toNat = valueAt s.cfg.hostEndian (loadedByte s a n) a.toNat n := by
  simp only [loadValue, loadedByte, Bool.and_eq_true, beq_iff_eq]
  split_ifs with hatomic
  · exact toNat_readValue s a.toNat n hn
  · rw [tornBytesAt_eq]
    exact toNat_ordered s.cfg.hostEndian (tornByteAt s) a.toNat n hn

/-- The reads of registers before a load do not change what it finds. -/
theorem AfterReads.toNat_loadValue {s u : State} (h : AfterReads s u) (a : Word) {n : Nat} (hn : n ≤ 8) :
    (loadValue u a.toNat n).toNat = valueAt s.cfg.hostEndian (loadedByte s a n) a.toNat n := by
  rw [Machine.toNat_loadValue u a hn, h]
  rfl

/-! ## What a store leaves (R52, R262) -/

theorem storesAt_of_mem_eq {s t : State} {a : Nat} {bytes : List Byte} (h : t.mem = storeBytes s.mem a bytes) :
    StoresAt s t a bytes where
  stored i hi := by
    rw [h, byteAt_storeBytes, dif_pos ⟨by omega, by omega⟩]
    simp only [Nat.add_sub_cancel_left]
  others b hb := by rw [h, byteAt_storeBytes, dif_neg (by omega)]

/-- What an instruction does that, after its reads, stores the low bytes of a value and moves on. -/
theorem AfterReads.writesMemory {s u : State} (h : AfterReads s u) (a n : Nat) (v : Word) :
    WritesMemory s (advance (writeValue u a n v) 1) a (memoryImage s.cfg.hostEndian n v) u.fresh where
  stores := storesAt_of_mem_eq (by
    rw [advance_mem, writeValue_mem, inOrder_lowBytes, h.mem, h.sameRest.cfg])
  regs := h.x
  pc := by rw [h]; rfl
  fresh := rfl
  rest := h.sameRest.trans ⟨rfl, rfl, rfl, rfl, rfl⟩

/-! ## The rules of the formats LDX, ST and STX (R98, R263) -/

/-- The rule of a load of `n` bytes, from its encoding and its meaning. -/
theorem load_rule {n : Nat} (hn : n ≤ 8) {mk : RegNum → RegNum → BitVec 16 → Instr} {opcode : BitVec 8}
    (hencode : ∀ dst src off, EncodesAs (mk dst src off) ⟨opcode, regField dst, regField src, off, 0⟩ (writableReg dst))
    (hexec : ∀ dst src off s, exec (mk dst src off) s = load n dst src off s) : LoadRule mk opcode n := by
  intro dst src off
  refine ⟨(hencode dst src off).readsFrom, ?_⟩
  rintro s ea (rfl : ea = effAddr (draw s src).1 off)
  rw [hexec, load_eq]
  refine ⟨fun hw => ?_, fun hw hr => ?_, fun hw hr ha => ?_, fun hw hr ha hb => ?_, fun hw hr ha hb => ?_⟩
  · simp [hw]
  · simp [hw, hr]
  · rw [if_pos hw, if_pos hr, if_neg (mt aligned_read_iff.1 ha)]
  · rw [if_pos hw, if_pos hr, if_pos (aligned_read_iff.2 ha), if_neg (mt admits_read_iff.1 hb)]
  · have reads : AfterReads s (draw s src).2 := (AfterReads.refl s).draw src
    rw [if_pos hw, if_pos hr, if_pos (aligned_read_iff.2 ha), if_pos (admits_read_iff.2 hb)]
    exact ⟨_, _, rfl, reads.writesReg dst _ 1, reads.toNat_loadValue _ hn⟩

/-- The rule of a store of an immediate of `n` bytes, from its encoding and its meaning. -/
theorem storeImm_rule {n : Nat} {mk : RegNum → BitVec 16 → BitVec 32 → Instr} {opcode : BitVec 8}
    (hencode : ∀ dst off imm, EncodesAs (mk dst off imm) ⟨opcode, regField dst, 0, off, imm⟩ true)
    (hexec : ∀ dst off imm s, exec (mk dst off imm) s = storeImm n dst off imm s) : StoreImmRule mk opcode n := by
  intro dst off imm
  refine ⟨(hencode dst off imm).readsFrom, ?_⟩
  rintro s ea (rfl : ea = effAddr (draw s dst).1 off)
  rw [hexec, storeImm_eq]
  refine ⟨fun hr => ?_, fun hr ha => ?_, fun hr ha hb => ?_, fun hr ha hb => ?_⟩
  · simp [hr]
  · rw [if_pos hr, if_neg (mt aligned_write_iff.1 ha)]
  · rw [if_pos hr, if_pos (aligned_write_iff.2 ha), if_neg (mt admits_write_iff.1 hb)]
  · rw [if_pos hr, if_pos (aligned_write_iff.2 ha), if_pos (admits_write_iff.2 hb)]
    exact ⟨_, rfl, ((AfterReads.refl s).draw dst).writesMemory _ n (sext64 imm)⟩

/-- The rule of a store of `n` bytes of a register, from its encoding and its meaning. -/
theorem storeReg_rule {n : Nat} {mk : RegNum → BitVec 16 → RegNum → Instr} {opcode : BitVec 8}
    (hencode : ∀ dst off src, EncodesAs (mk dst off src) ⟨opcode, regField dst, regField src, off, 0⟩ true)
    (hexec : ∀ dst off src s, exec (mk dst off src) s = storeReg n dst off src s) : StoreRegRule mk opcode n := by
  intro dst off src
  refine ⟨(hencode dst off src).readsFrom, ?_⟩
  rintro s ea (rfl : ea = effAddr (draw s dst).1 off)
  rw [hexec, storeReg_eq]
  refine ⟨fun hr => ?_, fun hd hs ha => ?_, fun hd hs ha hb => ?_, fun hd hs ha hb => ?_⟩
  · rw [if_neg hr]
  · rw [if_pos ⟨hd, hs⟩, if_neg (mt aligned_write_iff.1 ha)]
  · rw [if_pos ⟨hd, hs⟩, if_pos (aligned_write_iff.2 ha), if_neg (mt admits_write_iff.1 hb)]
  · rw [if_pos ⟨hd, hs⟩, if_pos (aligned_write_iff.2 ha), if_pos (admits_write_iff.2 hb)]
    exact ⟨_, rfl, (((AfterReads.refl s).draw dst).draw src).writesMemory _ n _⟩

/-! ## The instructions (R264 to R275) -/

/-- Settles O15: each instruction runs `load` with its width. -/
theorem loadForms : Obligations.LoadForms :=
  ⟨load_rule (by decide) (fun _ _ _ => ⟨rfl, rfl⟩) fun _ _ _ _ => rfl,
    load_rule (by decide) (fun _ _ _ => ⟨rfl, rfl⟩) fun _ _ _ _ => rfl,
    load_rule (by decide) (fun _ _ _ => ⟨rfl, rfl⟩) fun _ _ _ _ => rfl,
    load_rule (by decide) (fun _ _ _ => ⟨rfl, rfl⟩) fun _ _ _ _ => rfl⟩

/-- Settles O16: each instruction runs `storeImm` with its width. -/
theorem storeImmediateForms : Obligations.StoreImmediateForms :=
  ⟨storeImm_rule (fun _ _ _ => ⟨rfl, rfl⟩) fun _ _ _ _ => rfl,
    storeImm_rule (fun _ _ _ => ⟨rfl, rfl⟩) fun _ _ _ _ => rfl,
    storeImm_rule (fun _ _ _ => ⟨rfl, rfl⟩) fun _ _ _ _ => rfl,
    storeImm_rule (fun _ _ _ => ⟨rfl, rfl⟩) fun _ _ _ _ => rfl⟩

/-- Settles O17: each instruction runs `storeReg` with its width. -/
theorem storeRegisterForms : Obligations.StoreRegisterForms :=
  ⟨storeReg_rule (fun _ _ _ => ⟨rfl, rfl⟩) fun _ _ _ _ => rfl,
    storeReg_rule (fun _ _ _ => ⟨rfl, rfl⟩) fun _ _ _ _ => rfl,
    storeReg_rule (fun _ _ _ => ⟨rfl, rfl⟩) fun _ _ _ _ => rfl,
    storeReg_rule (fun _ _ _ => ⟨rfl, rfl⟩) fun _ _ _ _ => rfl⟩

end Sys2Proof.Machine

/-! Atomic operations (`47_atomic.md`): the checks of an atomic access in the words of R56 and R57, the low bits of what is combined,
what is left of a state after the access, and the rules of the format ATOMIC. -/

namespace Sys2Proof.Machine

/-! ## The checks of an atomic access (R56, R57, R282) -/

/-- An atomic access is aligned or not whatever `STRICT_ALIGN` is. -/
theorem aligned_atomic_iff {c : Config} {a n : Nat} : aligned c a n .atomic = true ↔ a % n = 0 := by
  simp [aligned]

theorem admits_atomic_iff {c : Config} {a : Word} {n : Nat} :
    admits c a.toNat n .atomic = true ↔ Admitted c a n Region.readWrite := admits_iff

/-! ## The low bits of a value (R54, R281) -/

theorem lowBytes_truncTo {n : Nat} (hn : n ≤ 8) (v : Word) : lowBytes n (truncTo n v) = lowBytes n v :=
  lowBytes_wordOfBytes hn (lowBytes_length n v)

/-- A store of `n` bytes leaves the same bytes for two values with the same low `8 * n` bits. -/
theorem memoryImage_congr (o : ByteOrder) {n : Nat} (hn : n ≤ 8) {v w : Word} (h : truncTo n v = truncTo n w) :
    memoryImage o n v = memoryImage o n w := by
  rw [← inOrder_lowBytes, ← inOrder_lowBytes, ← lowBytes_truncTo hn v, h, lowBytes_truncTo hn]

/-- The low bits of a result are those of the operation on the low bits: no operation moves a bit down. -/
theorem setWidth_atomicResult (op : AtomicOp) {k : Nat} (hk : k ≤ 64) (old v : Word) :
    (atomicResult op old v).setWidth k = (atomicResult op old ((v.setWidth k).setWidth 64)).setWidth k := by
  have cut : ((v.setWidth k).setWidth 64).setWidth k = v.setWidth k := by simp [hk]
  cases op with
  | add => simp only [atomicResult, BitVec.setWidth_add _ _ hk, cut]
  | or => simp only [atomicResult, BitVec.setWidth_or, cut]
  | and => simp only [atomicResult, BitVec.setWidth_and, cut]
  | xor => simp only [atomicResult, BitVec.setWidth_xor, cut]
  | xchg => exact cut.symm

/-- What an atomic operation stores does not depend on the bits of x[src] above its width. -/
theorem memoryImage_atomicResult_truncTo (o : ByteOrder) {n : Nat} (hn : n ≤ 8) (op : AtomicOp) (old v : Word) :
    memoryImage o n (atomicResult op old (truncTo n v)) = memoryImage o n (atomicResult op old v) := by
  apply memoryImage_congr o hn
  rw [truncTo_eq_setWidth hn, truncTo_eq_setWidth hn (atomicResult op old v), truncTo_eq_setWidth hn v,
    ← setWidth_atomicResult op (by omega)]

/-- The comparison of a compare and exchange, as one of numbers (R295, R305). -/
theorem eq_truncTo_iff {n : Nat} (hn : n ≤ 8) (old e : Word) : old = truncTo n e ↔ old.toNat = e.toNat % 2 ^ (8 * n) := by
  rw [← toNat_truncTo n e hn, BitVec.toNat_inj]

/-! ## What an atomic access finds and leaves (R52, R281) -/

theorem AfterReads.toNat_readValue {s u : State} (h : AfterReads s u) (a : Nat) {n : Nat} (hn : n ≤ 8) :
    (readValue u a n).toNat = valueAt s.cfg.hostEndian (byteAt s.mem) a n := by
  rw [Machine.toNat_readValue u a n hn, h.mem, h.sameRest.cfg]

/-- The bytes that a store after some reads leaves, whatever else but memory the instruction changes afterwards. -/
theorem AfterReads.storesAt {s u t : State} (h : AfterReads s u) {a n : Nat} {v : Word}
    (hmem : t.mem = (writeValue u a n v).mem) : StoresAt s t a (memoryImage s.cfg.hostEndian n v) :=
  storesAt_of_mem_eq (by rw [hmem, writeValue_mem, inOrder_lowBytes, h.mem, h.sameRest.cfg])

/-- `w` is `s` after some reads of registers and at most a store: only memory and the count of free values may differ. -/
def AfterAccess (s w : State) : Prop := w = { s with mem := w.mem, fresh := w.fresh }

theorem AfterReads.afterAccess {s u : State} (h : AfterReads s u) : AfterAccess s u := by rw [h]; rfl

theorem AfterReads.afterAccess_writeValue {s u : State} (h : AfterReads s u) (a n : Nat) (v : Word) :
    AfterAccess s (writeValue u a n v) := by rw [h]; rfl

theorem AfterAccess.x {s w : State} (h : AfterAccess s w) : w.x = s.x := by rw [h]

theorem AfterAccess.pc {s w : State} (h : AfterAccess s w) : w.pc = s.pc := by rw [h]

theorem AfterAccess.sameRest {s w : State} (h : AfterAccess s w) : SameRest s w := by constructor <;> rw [h]

/-- The end of an atomic operation: where it fetches, the old value goes to the register `r`, and the pc passes the slot. -/
def endAtomic (fetches : Bool) (w : State) (r : RegNum) (old : Word) : State :=
  advance (if fetches = true then setReg w r old else w) 1

section
variable (fetches : Bool) (w : State) (r : RegNum) (old : Word)

@[simp] theorem endAtomic_mem : (endAtomic fetches w r old).mem = w.mem := by cases fetches <;> rfl

@[simp] theorem endAtomic_pc : (endAtomic fetches w r old).pc = w.pc + 1 := by cases fetches <;> rfl

@[simp] theorem endAtomic_fresh : (endAtomic fetches w r old).fresh = w.fresh := by cases fetches <;> rfl

theorem endAtomic_sameRest : SameRest w (endAtomic fetches w r old) := by
  cases fetches <;> exact ⟨rfl, rfl, rfl, rfl, rfl⟩

theorem endAtomic_fetched (h : fetches = true) : (endAtomic fetches w r old).x[r] = Reg.of old := by
  rw [endAtomic, if_pos h]
  exact set_self w.x r (Reg.of old)

theorem endAtomic_other {q : RegNum} (h : ¬ (fetches = true ∧ q = r)) : (endAtomic fetches w r old).x[q] = w.x[q] := by
  rw [endAtomic]
  split_ifs with hf
  · exact set_other w.x r q (Reg.of old) fun hq => h ⟨hf, hq⟩
  · rfl

end

/-! ## The rule of the operations that combine (R280 to R284) -/

/-- The forms of an atomic operation: without FETCH and with it. -/
def atomicForm (fetches : Bool) (n : Nat) (op : AtomicOp) (dst : RegNum) (off : BitVec 16) (src : RegNum) (s : State) :
    Host.Outcome State Fault Refusal :=
  match fetches with
  | false => atomicUpdate n op dst off src s
  | true => atomicFetch n op dst off src s

/-- Both forms make the same checks, but for that of R10, and the same store. -/
theorem atomicForm_eq (fetches : Bool) (n : Nat) (op : AtomicOp) (dst : RegNum) (off : BitVec 16) (src : RegNum)
    (s : State) :
    atomicForm fetches n op dst off src s =
      if (!fetches || writableReg src) = true then
        if canRead s dst = true ∧ canRead s src = true then
          if aligned s.cfg (effAddr (draw s dst).1 off).toNat n .atomic = true then
            if admits s.cfg (effAddr (draw s dst).1 off).toNat n .atomic = true then
              .next (endAtomic fetches
                (writeValue (read2State s dst src) (effAddr (draw s dst).1 off).toNat n
                  (atomicResult op (readValue (read2State s dst src) (effAddr (draw s dst).1 off).toNat n)
                    (truncTo n (draw (draw s dst).2 src).1)))
                src (readValue (read2State s dst src) (effAddr (draw s dst).1 off).toNat n))
            else .fault (.memFault s.pc (effAddr (draw s dst).1 off) n .atomic)
          else .fault (.memFault s.pc (effAddr (draw s dst).1 off) n .align)
        else .fault (.unwrittenRegister s.pc (lowUnreadable s dst src))
      else .fault (illegal s .badRegister) := by
  cases fetches with
  | false => exact (atomicUpdate_eq n op dst off src s).trans (if_pos rfl).symm
  | true => exact atomicFetch_eq n op dst off src s

/-- The rule of an atomic operation on `n` bytes, from its encoding and its meaning. -/
theorem atomic_rule {n : Nat} (hn : n ≤ 8) (fetches : Bool) (op : AtomicOp) {mk : RegNum → BitVec 16 → RegNum → Instr}
    {opcode : BitVec 8} {selector : BitVec 32}
    (hencode : ∀ dst off src, EncodesAs (mk dst off src) ⟨opcode, regField dst, regField src, off, selector⟩
      (!fetches || writableReg src))
    (hexec : ∀ dst off src s, exec (mk dst off src) s = atomicForm fetches n op dst off src s) :
    AtomicRule mk opcode selector n fetches (atomicResult op) := by
  intro dst off src
  refine ⟨(hencode dst off src).readsFrom, ?_⟩
  rintro s ea (rfl : ea = effAddr (draw s dst).1 off)
  rw [hexec, atomicForm_eq]
  refine ⟨fun hf hw => ?_, fun hl hr => ?_, fun hl hd hs ha => ?_, fun hl hd hs ha hb => ?_, fun hl hd hs ha hb => ?_⟩
  · rw [if_neg (by simp [hf, hw])]
  · rw [if_pos hl, if_neg hr]
  · rw [if_pos hl, if_pos ⟨hd, hs⟩, if_neg (mt aligned_atomic_iff.1 ha)]
  · rw [if_pos hl, if_pos ⟨hd, hs⟩, if_pos (aligned_atomic_iff.2 ha), if_neg (mt admits_atomic_iff.1 hb)]
  · have reads : AfterReads s (read2State s dst src) := ((AfterReads.refl s).draw dst).draw src
    rw [if_pos hl, if_pos ⟨hd, hs⟩, if_pos (aligned_atomic_iff.2 ha), if_pos (admits_atomic_iff.2 hb)]
    refine ⟨_, _, rfl, reads.toNat_readValue _ hn, ?_, endAtomic_fetched _ _ _ _, fun r hr => ?_, ?_, ?_, ?_⟩
    · rw [← memoryImage_atomicResult_truncTo _ hn]
      exact reads.storesAt (endAtomic_mem _ _ _ _)
    · rw [endAtomic_other _ _ _ _ hr, (reads.afterAccess_writeValue _ _ _).x]
    · rw [endAtomic_pc, (reads.afterAccess_writeValue _ _ _).pc]
    · rw [endAtomic_fresh, writeValue_fresh]
    · exact (reads.afterAccess_writeValue _ _ _).sameRest.trans (endAtomic_sameRest _ _ _ _)

/-! ## The instructions but for compare and exchange (R286 to R294, R296 to R304) -/

/-- Settles O18: each instruction is a form of its operation on 4 bytes. -/
theorem atomic32Forms : Obligations.Atomic32Forms :=
  ⟨atomic_rule (by decide) false .add (fun _ _ _ => ⟨rfl, rfl⟩) fun _ _ _ _ => rfl,
    atomic_rule (by decide) true .add (fun _ _ _ => ⟨rfl, rfl⟩) fun _ _ _ _ => rfl,
    atomic_rule (by decide) false .or (fun _ _ _ => ⟨rfl, rfl⟩) fun _ _ _ _ => rfl,
    atomic_rule (by decide) true .or (fun _ _ _ => ⟨rfl, rfl⟩) fun _ _ _ _ => rfl,
    atomic_rule (by decide) false .and (fun _ _ _ => ⟨rfl, rfl⟩) fun _ _ _ _ => rfl,
    atomic_rule (by decide) true .and (fun _ _ _ => ⟨rfl, rfl⟩) fun _ _ _ _ => rfl,
    atomic_rule (by decide) false .xor (fun _ _ _ => ⟨rfl, rfl⟩) fun _ _ _ _ => rfl,
    atomic_rule (by decide) true .xor (fun _ _ _ => ⟨rfl, rfl⟩) fun _ _ _ _ => rfl,
    atomic_rule (by decide) true .xchg (fun _ _ _ => ⟨rfl, rfl⟩) fun _ _ _ _ => rfl⟩

/-- Settles O19: each instruction is a form of its operation on 8 bytes. -/
theorem atomic64Forms : Obligations.Atomic64Forms :=
  ⟨atomic_rule (by decide) false .add (fun _ _ _ => ⟨rfl, rfl⟩) fun _ _ _ _ => rfl,
    atomic_rule (by decide) true .add (fun _ _ _ => ⟨rfl, rfl⟩) fun _ _ _ _ => rfl,
    atomic_rule (by decide) false .or (fun _ _ _ => ⟨rfl, rfl⟩) fun _ _ _ _ => rfl,
    atomic_rule (by decide) true .or (fun _ _ _ => ⟨rfl, rfl⟩) fun _ _ _ _ => rfl,
    atomic_rule (by decide) false .and (fun _ _ _ => ⟨rfl, rfl⟩) fun _ _ _ _ => rfl,
    atomic_rule (by decide) true .and (fun _ _ _ => ⟨rfl, rfl⟩) fun _ _ _ _ => rfl,
    atomic_rule (by decide) false .xor (fun _ _ _ => ⟨rfl, rfl⟩) fun _ _ _ _ => rfl,
    atomic_rule (by decide) true .xor (fun _ _ _ => ⟨rfl, rfl⟩) fun _ _ _ _ => rfl,
    atomic_rule (by decide) true .xchg (fun _ _ _ => ⟨rfl, rfl⟩) fun _ _ _ _ => rfl⟩

/-! ## Compare and exchange (R295, R305) -/

/-- What a compare and exchange does to memory, from the state `u` after its reads: the store of `v`, where the bytes at `a` are the
low bytes of `e`. -/
def storeIfEqual (u : State) (a n : Nat) (e v : Word) : State :=
  if readValue u a n = truncTo n e then writeValue u a n v else u

@[simp] theorem storeIfEqual_fresh (u : State) (a n : Nat) (e v : Word) : (storeIfEqual u a n e v).fresh = u.fresh := by
  rw [storeIfEqual]
  split_ifs <;> rfl

theorem AfterReads.afterAccess_storeIfEqual {s u : State} (h : AfterReads s u) (a n : Nat) (e v : Word) :
    AfterAccess s (storeIfEqual u a n e v) := by
  rw [storeIfEqual]
  split_ifs
  · exact h.afterAccess_writeValue a n v
  · exact h.afterAccess

/-- Memory after either outcome. -/
theorem AfterReads.memory_storeIfEqual {s u t : State} (h : AfterReads s u) {a n : Nat} (hn : n ≤ 8) {e v : Word}
    (hmem : t.mem = (storeIfEqual u a n e v).mem) :
    if (readValue u a n).toNat = e.toNat % 2 ^ (8 * n) then StoresAt s t a (memoryImage s.cfg.hostEndian n v)
    else ∀ b, byteAt t.mem b = byteAt s.mem b := by
  simp only [storeIfEqual, eq_truncTo_iff hn] at hmem
  split_ifs at hmem ⊢
  · exact h.storesAt hmem
  · intro b
    rw [hmem, h.mem]

/-- The rule of a compare and exchange on `n` bytes, from its encoding and its meaning. -/
theorem compareExchange_rule {n : Nat} (hn : n ≤ 8) {mk : RegNum → BitVec 16 → RegNum → Instr} {opcode : BitVec 8}
    (hencode : ∀ dst off src, EncodesAs (mk dst off src) ⟨opcode, regField dst, regField src, off, 0xf1⟩ true)
    (hexec : ∀ dst off src s, exec (mk dst off src) s = compareExchange n dst off src s) :
    CompareExchangeRule mk opcode n := by
  intro dst off src
  refine ⟨(hencode dst off src).readsFrom, ?_⟩
  rintro s ea (rfl : ea = effAddr (draw s dst).1 off)
  rw [hexec]
  have readable (hd : canRead s dst = true) (hs : canRead s src = true) (h0 : canRead s 0 = true) :
      ∀ k ∈ [dst, src, 0], canRead s k = true := by simp [hd, hs, h0]
  refine ⟨fun h => ?_, fun hd hs h0 ha => ?_, fun hd hs h0 ha hb => ?_, fun hd hs h0 ha hb => ?_⟩
  · obtain h | h | h := h
    · exact compareExchange_unreadable n dst off src s dst (by simp) h
    · exact compareExchange_unreadable n dst off src s src (by simp) h
    · exact compareExchange_unreadable n dst off src s 0 (by simp) h
  · rw [compareExchange_eq n dst off src s (readable hd hs h0), if_neg (mt aligned_atomic_iff.1 ha)]
  · rw [compareExchange_eq n dst off src s (readable hd hs h0), if_pos (aligned_atomic_iff.2 ha),
      if_neg (mt admits_atomic_iff.1 hb)]
  · have reads : AfterReads s (read3State s dst src 0) := (((AfterReads.refl s).draw dst).draw src).draw 0
    have access := reads.afterAccess_storeIfEqual (effAddr (draw s dst).1 off).toNat n
      (draw (draw (draw s dst).2 src).2 0).1 (draw (draw s dst).2 src).1
    rw [compareExchange_eq n dst off src s (readable hd hs h0), if_pos (aligned_atomic_iff.2 ha),
      if_pos (admits_atomic_iff.2 hb)]
    refine ⟨endAtomic true (storeIfEqual _ _ _ _ _) 0 _, _, rfl, reads.toNat_readValue _ hn,
      reads.memory_storeIfEqual hn (endAtomic_mem _ _ _ _), endAtomic_fetched _ _ _ _ rfl, fun r hr => ?_, ?_, ?_,
      access.sameRest.trans (endAtomic_sameRest _ _ _ _)⟩
    · rw [endAtomic_other _ _ _ _ fun h => hr h.2, access.x]
    · rw [endAtomic_pc, access.pc]
    · rw [endAtomic_fresh, storeIfEqual_fresh]

/-- Settles O20: each instruction runs `compareExchange` with its width. -/
theorem compareExchangeForms : Obligations.CompareExchangeForms :=
  ⟨compareExchange_rule (by decide) (fun _ _ _ => ⟨rfl, rfl⟩) fun _ _ _ _ => rfl,
    compareExchange_rule (by decide) (fun _ _ _ => ⟨rfl, rfl⟩) fun _ _ _ _ => rfl⟩

end Sys2Proof.Machine

/-! 64-bit immediates and legacy packet access (`48_imm64.md`, `49_legacy_packet.md`): where a wide instruction is read from, the rules
of the format LD64 from the one operation `loadPlatform`, and the refused opcodes. -/

namespace Sys2Proof.Machine

/-! ## Where a wide instruction is read from (R84, R92) -/

/-- A wide instruction as its rule gives it: the fields of its first slot, what its pseudo slot carries, and where it is legal. -/
def EncodesAsWide (i : Instr) (f : Fields) (nextImm : BitVec 32) (legal : Bool) : Prop :=
  i.wf = legal ∧ encode i = [f.toSlot, Fields.toSlot ⟨0, 0, 0, 0, nextImm⟩]

/-- The two directions of the round trip, for the two slots of a wide instruction. -/
theorem EncodesAsWide.readsFromWide {i : Instr} {f : Fields} {nextImm : BitVec 32} {legal : Bool}
    (h : EncodesAsWide i f nextImm legal) : ReadsFromWide i f nextImm legal := by
  obtain ⟨rfl, hencode⟩ := h
  have two : i.slots = 2 := by rw [Instr.slots, hencode]; rfl
  intro g next
  constructor
  · intro hdecode
    obtain ⟨hwf, hslots⟩ := encodeDecode g.toSlot next i hdecode
    rw [hencode, if_pos two, List.cons.injEq] at hslots
    obtain ⟨hfirst, hsecond⟩ := hslots
    refine ⟨hwf, ?_, Option.toList_eq_singleton_iff.mp hsecond.symm⟩
    rw [← Laws.ofSlot_toSlot g, ← hfirst, Laws.ofSlot_toSlot]
  · rintro ⟨hwf, rfl, rfl⟩
    obtain ⟨w, rest, hslots, hdecode⟩ := decodeEncode i hwf []
    rw [hencode, List.append_nil, List.cons.injEq] at hslots
    obtain ⟨rfl, rfl⟩ := hslots
    exact hdecode

/-! ## The rules of the format LD64 (R310 to R312) -/

/-- The rule of a wide form holds of an instruction with its encoding that loads what the platform gives. -/
theorem wideRule_of_exec {i : Instr} {dst : RegNum} {f : Fields} {nextImm : BitVec 32} {value : State → Option Word}
    (hencode : EncodesAsWide i f nextImm (writableReg dst)) (hexec : ∀ s, exec i s = loadPlatform dst (value s) s) :
    WideRule i dst f nextImm value := by
  refine ⟨hencode.readsFromWide, fun s => ⟨fun hw => ?_, fun hnone => ?_, fun v hw hv => ?_⟩⟩
  · rw [hexec, loadPlatform_eq]
    cases value s with
    | none => exact ⟨_, rfl⟩
    | some v => exact ⟨_, if_neg (Bool.eq_false_iff.mp hw)⟩
  · rw [hexec, loadPlatform_eq, hnone]
  · refine ⟨_, ?_, (AfterReads.refl s).writesReg dst v 2⟩
    simp only [hexec, loadPlatform_eq, hv, hw, if_true]

/-- Settles O21: the constant is a value that every platform gives. -/
theorem loadConstant64 : Obligations.LoadConstant64 :=
  fun _ _ _ => wideRule_of_exec ⟨rfl, rfl⟩ fun _ => rfl

/-- The address of a map's value, from whichever function gives the map: none where maps are not supported (R311). -/
theorem mapValue_eq (supported : Bool) (map : Option Word) (mva : Word → Option Word) (n : BitVec 32) :
    ((if supported = true then map else none).bind mva).map (· + zext64 n) =
      if supported = true then (map.bind mva).map (· + n.setWidth 64) else none := by
  cases supported <;> rfl

/-- Settles O22: each form runs `loadPlatform` on its platform function; the value forms add `next_imm` to what `mva` gives. -/
theorem loadPlatformAddresses : Obligations.LoadPlatformAddresses := by
  intro dst imm nextImm
  refine ⟨wideRule_of_exec ⟨rfl, rfl⟩ fun s => rfl, wideRule_of_exec ⟨rfl, rfl⟩ fun s => ?_,
    wideRule_of_exec ⟨rfl, rfl⟩ fun s => rfl, wideRule_of_exec ⟨rfl, rfl⟩ fun s => rfl,
    wideRule_of_exec ⟨rfl, rfl⟩ fun s => rfl, wideRule_of_exec ⟨rfl, rfl⟩ fun s => ?_⟩
  · exact congrArg (loadPlatform dst · s) (mapValue_eq s.cfg.mapsSupported _ (mapValueAddr s.cfg) nextImm)
  · exact congrArg (loadPlatform dst · s) (mapValue_eq s.cfg.mapsSupported _ (mapValueAddr s.cfg) nextImm)

/-! ## Legacy packet access (R322 to R330) -/

/-- The rule of an instruction that is named and never executed, from its encoding with every field kept and its one outcome. -/
theorem refusedRule_of_exec {mk : BitVec 4 → BitVec 4 → BitVec 16 → BitVec 32 → Instr} {opcode : BitVec 8}
    (hencode : ∀ dst src off imm, EncodesAs (mk dst src off imm) ⟨opcode, dst, src, off, imm⟩ true)
    (hexec : ∀ dst src off imm s, exec (mk dst src off imm) s = .fault (illegal s .legacy)) : RefusedRule mk opcode :=
  fun dst src off imm => ⟨(hencode dst src off imm).readsFrom, hexec dst src off imm⟩

/-- Settles O23: each opcode has a row that keeps every field, and a meaning that is the fault. -/
theorem legacyRefused : Obligations.LegacyRefused :=
  ⟨refusedRule_of_exec (fun _ _ _ _ => ⟨rfl, rfl⟩) fun _ _ _ _ _ => rfl,
    refusedRule_of_exec (fun _ _ _ _ => ⟨rfl, rfl⟩) fun _ _ _ _ _ => rfl,
    refusedRule_of_exec (fun _ _ _ _ => ⟨rfl, rfl⟩) fun _ _ _ _ _ => rfl,
    refusedRule_of_exec (fun _ _ _ _ => ⟨rfl, rfl⟩) fun _ _ _ _ _ => rfl,
    refusedRule_of_exec (fun _ _ _ _ => ⟨rfl, rfl⟩) fun _ _ _ _ _ => rfl,
    refusedRule_of_exec (fun _ _ _ _ => ⟨rfl, rfl⟩) fun _ _ _ _ _ => rfl,
    refusedRule_of_exec (fun _ _ _ _ => ⟨rfl, rfl⟩) fun _ _ _ _ _ => rfl,
    refusedRule_of_exec (fun _ _ _ _ => ⟨rfl, rfl⟩) fun _ _ _ _ _ => rfl⟩

end Sys2Proof.Machine

/-! Steps, their faults and the end of a run (`60_exceptions.md`, `70_reset_and_hazards.md`): the two faults of the fetch, runs that have
stopped, what a later run finds, and the words that the spec writes out beside their instructions. -/

namespace Sys2Proof.Machine

/-! ## The fetch (R341, R342, R376) -/

/-- Settles O30. -/
theorem stepRunsDecoded : Obligations.StepRunsDecoded := fun _ _ _ => step_of_decodeSlots_ok

theorem slotAt_eq_none_iff {c : Config} {p : Int} : slotAt c p = none ↔ p < 0 ∨ (c.program.length : Int) ≤ p := by
  rw [slotAt]
  split
  · simp [*]
  · rw [List.getElem?_eq_none_iff]
    omega

/-- A running machine whose pc lies outside the program faults (R342). -/
theorem step_of_slotAt_none {s : State} (hrun : s.status = .running) (hslot : slotAt s.cfg s.pc = none) :
    step s = .fault (.pcOutOfRange s.pc) := by
  simp only [step, hrun, fetch, envTurn_cfg, envTurn_pc, hslot]

/-- Settles O31: no slot at the pc, or one that does not decode. -/
theorem fetchFaults : Obligations.FetchFaults := fun _ hrun =>
  ⟨fun hout => step_of_slotAt_none hrun (slotAt_eq_none_iff.mpr hout), fun _ _ => step_of_decodeSlots_error hrun⟩

/-! ## Runs that have stopped (R340, R377) -/

theorem runFor_of_ended {s : State} {v : Word} (h : s.status = .ended v) (n : Nat) : runFor n s = s := by
  cases n with
  | zero => rfl
  | succ n => simp only [runFor, h]

theorem runFor_of_faulted {s : State} {f : Fault} (h : s.status = .faulted f) (n : Nat) : runFor n s = s := by
  cases n with
  | zero => rfl
  | succ n => simp only [runFor, h]

/-- Settles O45. -/
theorem exitEndsRun : Obligations.ExitEndsRun := by
  intro s v n h
  refine ⟨?_, runFor_of_ended h n, ?_⟩
  · simp only [step, h]
  · simp only [resultOf, h]

/-- Settles O46: the first step records the fault, and a run with a recorded fault goes no further. -/
theorem faultsArePrecise : Obligations.FaultsArePrecise := by
  intro s f n hrun hfault
  calc runFor (n + 1) s
      = runFor n (record s (step s)) := by simp only [runFor, hrun]
    _ = runFor n { envTurn s with status := .faulted f } := by rw [hfault]; rfl
    _ = { envTurn s with status := .faulted f } := runFor_of_faulted rfl n

/-! ## What a later run finds (R373, R375) -/

/-- A choice among the bytes by their addresses: at an address chosen the byte is as before, at another there is none. -/
theorem lookupByte_filter (m : Memory) (keep : Nat → Bool) (a : Nat) :
    lookupByte (m.filter fun e => keep e.1) a = if keep a = true then lookupByte m a else none := by
  rw [lookupByte, lookupByte]
  induction m with
  | nil => simp
  | cons e m ih =>
    obtain ⟨k, b⟩ := e
    by_cases hk : a = k
    · subst hk
      by_cases hkeep : keep a = true
      · simp [hkeep]
      · simpa [hkeep] using ih
    · have hne : (a == k) = false := beq_false_of_ne hk
      by_cases hkeep : keep k = true <;> simp [hkeep, List.lookup_cons, hne, ih]

/-- Settles O54: the bytes of shared regions, and over them those that the host places. -/
theorem survivingMemory_nextRun : Obligations.SurvivingMemory := by
  intro s c placed env a
  refine ⟨?_, rfl, rfl, rfl, rfl, rfl, rfl, rfl⟩
  have kept : lookupByte (survivingMemory s) a = if isShared s.cfg a = true then lookupByte s.mem a else none :=
    lookupByte_filter s.mem (isShared s.cfg) a
  have later : (nextRun s c placed env).mem = storeEach (survivingMemory s) placed := rfl
  rw [later, lookupByte_storeEach, kept]
  cases placed.reverse.find? fun w => w.1.toNat == a <;> rfl

/-! ## Words written out in the spec -/

/-- Settles O27, by decoding each word. -/
theorem encodingExamples : Obligations.EncodingExamples := by
  unfold Obligations.EncodingExamples
  decide

end Sys2Proof.Machine

/-! Programs that the loader accepts (`70_reset_and_hazards.md`, R374): how its scan lays out the text, what its checks of one
instruction say, and what a step from a first slot can then do. -/

namespace Sys2Proof.Machine

/-! ## One slot or two (R92) -/

/-- The encoder writes one slot, or two of which the second has the opcode byte 0x00 (R84). -/
theorem encode_shape (i : Instr) :
    (∃ w, encode i = [w]) ∨ ∃ w n, encode i = [w, Fields.toSlot ⟨0, 0, 0, 0, n⟩] := by
  cases i
  case ldImm64 | ldMapFd | ldMapFdValue | ldVarAddr | ldCodeAddr | ldMapIdx | ldMapIdxValue => exact .inr ⟨_, _, rfl⟩
  all_goals exact .inl ⟨_, rfl⟩

theorem slots_pos (i : Instr) : 0 < i.slots := by
  rcases encode_shape i with ⟨w, h⟩ | ⟨w, n, h⟩ <;> simp [Instr.slots, h]

/-- A slot that an instruction has besides its first one has the opcode byte 0x00. -/
theorem opcode_zero_of_not_first {i : Instr} {k : Nat} {w : Slot} (hk : k ≠ 0) (h : (encode i)[k]? = some w) :
    w.extractLsb' 0 8 = 0 := by
  rcases encode_shape i with ⟨v, hi⟩ | ⟨v, n, hi⟩
  · simp [hi, hk] at h
  · obtain ⟨k, rfl⟩ := Nat.exists_eq_succ_of_ne_zero hk
    cases k with
    | zero =>
      rw [hi] at h
      cases h
      exact congrArg Fields.opcode (Laws.ofSlot_toSlot ⟨0, 0, 0, 0, n⟩)
    | succ k => simp [hi] at h

/-! ## The layout that a scan finds (R92, R374) -/

/-- Slots that, read from index `n` on, are the encodings of the instructions listed, each under the index of its first slot. -/
inductive Layout : Nat → List Slot → List (Nat × Instr) → Prop where
  | nil (n : Nat) : Layout n [] []
  | cons {n : Nat} {i : Instr} {rest : List Slot} {is : List (Nat × Instr)} (hwf : i.wf = true)
      (h : Layout (n + i.slots) rest is) : Layout n (encode i ++ rest) ((n, i) :: is)

theorem except_map_eq_ok {α β : Type} {x : Except Fault α} {g : α → β} {b : β} :
    x.map g = .ok b ↔ ∃ a, x = .ok a ∧ g a = b := by
  cases x with
  | error e => simp [Except.map]
  | ok a => simp [Except.map]

/-- What the loader's scan answers is a layout of the text. -/
theorem layout_of_scan {n : Nat} {l : List Slot} {is : List (Nat × Instr)} (h : scan n l = .ok is) : Layout n l is := by
  fun_induction scan n l generalizing is with
  | case1 n => cases h; exact .nil n
  | case2 n w i hdecode =>
    cases h
    obtain ⟨hwf, hencode⟩ := encodeDecode _ _ _ hdecode
    have one : encode i = [w] := by simpa using hencode
    have laid := Layout.cons hwf (Layout.nil (n + i.slots))
    rwa [one] at laid
  | case3 => cases h
  | case4 n w p rest i hdecode htwo ih =>
    obtain ⟨js, hscan, rfl⟩ := except_map_eq_ok.mp h
    obtain ⟨hwf, hencode⟩ := encodeDecode _ _ _ hdecode
    have both : encode i = [w, p] := by simpa [htwo] using hencode
    have laid := Layout.cons hwf (htwo ▸ ih hscan)
    rwa [both] at laid
  | case5 n w p rest i hdecode hnot ih =>
    obtain ⟨js, hscan, rfl⟩ := except_map_eq_ok.mp h
    obtain ⟨hwf, hencode⟩ := encodeDecode _ _ _ hdecode
    have one : encode i = [w] := by simpa [hnot] using hencode
    have len : i.slots = 1 := by rw [Instr.slots, one, List.length_singleton]
    have laid := Layout.cons hwf (len ▸ ih hscan)
    rwa [one] at laid
  | case6 => cases h

/-- Up to the first slot of an instruction listed, its own slots, and a layout of what follows them. -/
theorem Layout.split {n k : Nat} {l : List Slot} {is : List (Nat × Instr)} {i : Instr} (h : Layout n l is)
    (hmem : (k, i) ∈ is) :
    ∃ before after more, l = before ++ (encode i ++ after) ∧ k = n + before.length ∧ i.wf = true ∧
      Layout (k + i.slots) after more ∧ more ⊆ is := by
  induction h with
  | nil => cases hmem
  | @cons n j rest js hwf hrest ih =>
    rcases List.mem_cons.mp hmem with e | hmem
    · cases e
      exact ⟨[], rest, js, rfl, rfl, hwf, hrest, List.subset_cons_self _ _⟩
    · obtain ⟨before, after, more, rfl, hk, hi, hafter, hsub⟩ := ih hmem
      refine ⟨encode j ++ before, after, more, (List.append_assoc _ _ _).symm, ?_, hi, hafter,
        List.subset_cons_of_subset _ hsub⟩
      rw [hk, List.length_append, Nat.add_assoc, Instr.slots]

theorem Layout.first_or_nil {n : Nat} {l : List Slot} {is : List (Nat × Instr)} (h : Layout n l is) :
    (∃ i, (n, i) ∈ is) ∨ l = [] := by
  cases h with
  | nil => exact .inr rfl
  | cons => exact .inl ⟨_, List.mem_cons_self⟩

/-- A slot of a layout is the first one of an instruction, or has the opcode byte 0x00. -/
theorem Layout.first_or_opcode_zero {n m : Nat} {l : List Slot} {is : List (Nat × Instr)} {w : Slot} (h : Layout n l is)
    (hw : l[m]? = some w) : (∃ i, (n + m, i) ∈ is) ∨ w.extractLsb' 0 8 = 0 := by
  induction h generalizing m with
  | nil => simp at hw
  | @cons n i rest js hwf hrest ih =>
    by_cases hm : m = 0
    · subst hm
      exact .inl ⟨i, List.mem_cons_self⟩
    by_cases hin : m < (encode i).length
    · rw [List.getElem?_append_left hin] at hw
      exact .inr (opcode_zero_of_not_first hm hw)
    · rw [List.getElem?_append_right (not_lt.mp hin)] at hw
      have index : n + i.slots + (m - (encode i).length) = n + m := by
        rw [Instr.slots]
        omega
      rcases index ▸ ih hw with ⟨j, hj⟩ | hzero
      · exact .inl ⟨j, List.mem_cons_of_mem _ hj⟩
      · exact .inr hzero

/-! ## The first slots of a program -/

/-- An index of the text where an instruction of the scan begins. -/
def IsStart (is : List (Nat × Instr)) (p : Int) : Prop := ∃ e ∈ is, p = e.1

/-- Where control may stand between two steps of an accepted program. -/
def IsStartOrEnd (c : Config) (is : List (Nat × Instr)) (p : Int) : Prop := IsStart is p ∨ p = c.program.length

theorem slotAt_natCast (c : Config) (k : Nat) : slotAt c k = c.program[k]? := by
  rw [slotAt, if_neg (Int.not_lt.mpr (Int.natCast_nonneg k)), Int.toNat_natCast]

/-- What the text holds where an instruction of the scan begins: `w` is its first slot, and past its slots the next one begins
or the text ends. -/
structure BeginsAt (c : Config) (is : List (Nat × Instr)) (k : Nat) (i : Instr) (w : Slot) : Prop where
  wf : i.wf = true
  slot : slotAt c k = some w
  decodes : decodeSlots w (slotAt c (k + 1)) = .ok i
  first : (encode i).headD 0 = w
  past : IsStartOrEnd c is (k + i.slots)

theorem beginsAt_of_scan {c : Config} {is : List (Nat × Instr)} (hscan : scan 0 c.program = .ok is) {k : Nat} {i : Instr}
    (hmem : (k, i) ∈ is) : ∃ w, BeginsAt c is k i w := by
  obtain ⟨before, after, more, htext, hk, hwf, hafter, hsub⟩ := (layout_of_scan hscan).split hmem
  obtain ⟨w, rest, hslots, hdecode⟩ := decodeEncode i hwf after
  rw [Nat.zero_add] at hk
  subst hk
  have second : slotAt c (before.length + 1 : Nat) = rest.head? := by
    rw [slotAt_natCast, htext, hslots, List.getElem?_append_right (Nat.le_add_right _ 1), List.head?_eq_getElem?,
      Nat.add_sub_cancel_left, List.getElem?_cons_succ]
  refine ⟨w, hwf, ?_, second ▸ hdecode, ?_, ?_⟩
  · rw [slotAt_natCast, htext, hslots, List.getElem?_append_right le_rfl, Nat.sub_self, List.getElem?_cons_zero]
  · obtain ⟨-, hencode⟩ := encodeDecode _ _ _ hdecode
    rw [hencode, List.headD_cons]
  · rcases hafter.first_or_nil with ⟨j, hj⟩ | rfl
    · exact .inl ⟨_, hsub hj, rfl⟩
    · refine .inr ?_
      rw [htext, List.append_nil, List.length_append, Instr.slots, Nat.cast_add]

/-! ## The loader's checks of one instruction (R311, R322, R342, R346, R374) -/

/-- A target in order is a first slot (R342). -/
theorem isStart_of_targetFault {c : Config} {is : List (Nat × Instr)} {n : Nat} {d : Int}
    (h : targetFault c (is.map Prod.fst) n (some d) = none) : IsStart is (n + 1 + d) := by
  simp only [targetFault] at h
  split at h
  · rename_i hany
    obtain ⟨k, hk, heq⟩ := List.any_eq_true.mp hany
    obtain ⟨e, he, rfl⟩ := List.mem_map.mp hk
    exact ⟨e, he, (beq_iff_eq.mp heq).symm⟩
  · split at h <;> cases h

/-- A bad target: outside the program, or no first slot of it; and the fault that is named for each. -/
theorem targetFault_cases {c : Config} {is : List (Nat × Instr)} {n : Nat} {d : Int} {f : Fault}
    (h : targetFault c (is.map Prod.fst) n (some d) = some f) :
    (slotAt c (n + 1 + d) = none ∧ f = .pcOutOfRange (n + 1 + d)) ∨
      ∃ w, slotAt c (n + 1 + d) = some w ∧ ¬ IsStart is (n + 1 + d) ∧
        f = .illegalInstruction (n + 1 + d) w .undefinedOpcode := by
  simp only [targetFault] at h
  split at h
  · cases h
  · rename_i hany
    split at h
    · rename_i hslot
      cases h
      exact .inl ⟨hslot, rfl⟩
    · rename_i w hslot
      cases h
      refine .inr ⟨w, hslot, fun hstart => hany ?_, rfl⟩
      obtain ⟨e, he, heq⟩ := hstart
      exact List.any_eq_true.mpr ⟨e.1, List.mem_map_of_mem he, beq_iff_eq.mpr heq.symm⟩

/-- A slot of the program that is no first slot has the opcode byte 0x00 (R84, R92). -/
theorem opcode_zero_of_not_isStart {c : Config} {is : List (Nat × Instr)} (hscan : scan 0 c.program = .ok is) {p : Int}
    {w : Slot} (hslot : slotAt c p = some w) (hp : ¬ IsStart is p) : w.extractLsb' 0 8 = 0 := by
  have inside : ¬ p < 0 := fun hneg => by rw [slotAt_eq_none_iff.mpr (.inl hneg)] at hslot; cases hslot
  obtain ⟨m, rfl⟩ := Int.eq_ofNat_of_zero_le (Int.not_lt.mp inside)
  rw [slotAt_natCast] at hslot
  rcases (layout_of_scan hscan).first_or_opcode_zero hslot with ⟨i, hi⟩ | hzero
  · exact absurd ⟨_, hi, by rw [Nat.zero_add]⟩ hp
  · exact hzero

/-- Settles O53: a bad target lies outside the program, or on the second slot of a wide instruction. -/
theorem loaderNamesTheFault : Obligations.LoaderNamesTheFault := by
  rintro c is n d f s hscan htarget rfl hrun hpc
  have bad := targetFault_cases htarget
  rw [← hpc] at bad
  rcases bad with ⟨hslot, rfl⟩ | ⟨w, hslot, hstart, rfl⟩
  · exact step_of_slotAt_none hrun hslot
  · exact step_of_opcode_zero hrun hslot (opcode_zero_of_not_isStart hscan hslot hstart)

/-- The loader finds nothing against any instruction of a program that it accepts. -/
theorem slotFault_of_accepted {c : Config} {is : List (Nat × Instr)} (hload : loaderFault c = none)
    (hscan : scan 0 c.program = .ok is) {k : Nat} {i : Instr} (hmem : (k, i) ∈ is) :
    slotFault c (is.map Prod.fst) k i = none := by
  rw [loaderFault, hscan] at hload
  split_ifs at hload with hempty hlong
  exact List.findSome?_eq_none_iff.mp hload (k, i) hmem

/-- What the loader's checks of the instruction that begins at `k` say, one by one. -/
theorem checks_of_accepted {c : Config} {is : List (Nat × Instr)} (hload : loaderFault c = none)
    (hscan : scan 0 c.program = .ok is) {k : Nat} {i : Instr} (hmem : (k, i) ∈ is) {w : Slot}
    (hslot : slotAt c k = some w) :
    instrFault c k w i = none ∧ (∀ d, jumpDisp (Fields.ofSlot w) = some d → IsStart is (k + 1 + d)) ∧
      ∀ d, localCallDisp c (Fields.ofSlot w) = some d → IsStart is (k + 1 + d) := by
  have h := slotFault_of_accepted hload hscan hmem
  rw [slotAt_natCast] at hslot
  simp only [slotFault, hslot, Option.or_eq_none_iff] at h
  obtain ⟨hinstr, hjump, hcall⟩ := h
  exact ⟨hinstr, fun d hd => isStart_of_targetFault (hd ▸ hjump), fun d hd => isStart_of_targetFault (hd ▸ hcall)⟩

/-! ## What an instruction does to the pc, and the faults that the text does not decide

Each shared operation is looked at once, for the pc of its next state and for its faults together. -/

/-- A fault that depends on the state of the run: not `IllegalInstruction`, `PcOutOfRange` or `UnknownFunction` (R349, R374). -/
def RunFault (f : Fault) : Prop := faultCode f ≠ 1 ∧ faultCode f ≠ 2 ∧ faultCode f ≠ 5

theorem runFault_memFault (pc : Int) (a : Word) (n : Nat) (k : AccessKind) : RunFault (.memFault pc a n k) := by
  simp [RunFault, faultCode]

theorem runFault_unwrittenRegister (pc : Int) (r : RegNum) : RunFault (.unwrittenRegister pc r) := by
  simp [RunFault, faultCode]

theorem runFault_callDepthExceeded (pc : Int) : RunFault (.callDepthExceeded pc) := by simp [RunFault, faultCode]

theorem runFault_helperFault (pc : Int) (space : CallSpace) (id : BitVec 32) : RunFault (.helperFault pc space id) := by
  simp [RunFault, faultCode]

theorem runFault_refusedShift (pc : Int) : RunFault (.refusedShift pc) := by simp [RunFault, faultCode]

/-- An outcome whose pc, where it is a next state, satisfies `ok`, and that else is a fault of the run. -/
def Continues (ok : Int → Prop) : Host.Outcome State Fault Refusal → Prop
  | .next t => ok t.pc
  | .fault f => RunFault f
  | .refused _ => False

section
variable {ok : Int → Prop} {o : Host.Outcome State Fault Refusal}

/-- An outcome behind a check of the run. -/
theorem continues_check {p : Prop} [Decidable p] {f : Fault} (hf : RunFault f) (h : Continues ok o) :
    Continues ok (if p then o else .fault f) := by
  split
  · exact h
  · exact hf

/-- An outcome behind a check that holds of every well-formed instruction. -/
theorem continues_of_pos {p : Prop} [Decidable p] {o' : Host.Outcome State Fault Refusal} (hp : p) (h : Continues ok o) :
    Continues ok (if p then o else o') := by
  rwa [if_pos hp]

/-- An access: both of its checks are of the run (R343). -/
theorem continues_access {aligned admitted : Prop} [Decidable aligned] [Decidable admitted] {pc : Int} {a : Word} {n : Nat}
    {k : AccessKind} (h : Continues ok o) :
    Continues ok (if aligned then if admitted then o else .fault (.memFault pc a n k)
      else .fault (.memFault pc a n .align)) :=
  continues_check (runFault_memFault _ _ _ _) (continues_check (runFault_memFault _ _ _ _) h)

variable {s : State}

theorem continues_advance {u : State} {n : Nat} (hu : u.pc = s.pc) (h : ok (s.pc + n)) :
    Continues ok (.next (advance u n)) := by
  rwa [Continues, advance_pc, hu]

theorem continues_branch {u : State} {taken : Bool} {disp : Int} (hu : u.pc = s.pc) (hpass : ok (s.pc + 1))
    (htarget : ok (s.pc + 1 + disp)) : Continues ok (.next (branch u taken disp)) := by
  rw [Continues, branch_pc, hu]
  cases taken with
  | false => rwa [if_neg Bool.false_ne_true, Int.add_zero]
  | true => rwa [if_pos rfl]

/-! ### Operations that pass on to the next instruction -/

theorem writeOrRefuse_continues {u : State} (hu : u.pc = s.pc) (hpass : ok (s.pc + 1)) (dst : RegNum) (v : Option Word) :
    Continues ok (writeOrRefuse s u dst v) := by
  cases v with
  | none => exact runFault_refusedShift _
  | some v => exact continues_advance hu hpass

section
variable {dst : RegNum} (hw : writableReg dst = true) (hpass : ok (s.pc + 1))
include hw hpass

theorem alu32K_continues (op : AluOp) (imm : BitVec 32) : Continues ok (alu32K op dst imm s) := by
  rw [alu32K_eq_writeOrRefuse]
  exact continues_of_pos hw
    (continues_check (runFault_unwrittenRegister _ _) (writeOrRefuse_continues (draw_pc s dst) hpass _ _))

theorem alu32X_continues (op : AluOp) (src : RegNum) : Continues ok (alu32X op dst src s) := by
  rw [alu32X_eq_writeOrRefuse]
  exact continues_of_pos hw
    (continues_check (runFault_unwrittenRegister _ _) (writeOrRefuse_continues ((draw_pc _ src).trans (draw_pc s dst)) hpass _ _))

theorem alu64K_continues (op : AluOp) (imm : BitVec 32) : Continues ok (alu64K op dst imm s) := by
  rw [alu64K_eq_writeOrRefuse]
  exact continues_of_pos hw
    (continues_check (runFault_unwrittenRegister _ _) (writeOrRefuse_continues (draw_pc s dst) hpass _ _))

theorem alu64X_continues (op : AluOp) (src : RegNum) : Continues ok (alu64X op dst src s) := by
  rw [alu64X_eq_writeOrRefuse]
  exact continues_of_pos hw
    (continues_check (runFault_unwrittenRegister _ _) (writeOrRefuse_continues ((draw_pc _ src).trans (draw_pc s dst)) hpass _ _))

theorem unary_continues (f : Word → Word) : Continues ok (unary f dst s) := by
  rw [unary_eq]
  exact continues_of_pos hw
    (continues_check (runFault_unwrittenRegister _ _) (continues_advance (draw_pc s dst) hpass))

theorem moveReg_continues (f : Word → Word) (src : RegNum) : Continues ok (moveReg f dst src s) := by
  rw [moveReg_eq]
  exact continues_of_pos hw
    (continues_check (runFault_unwrittenRegister _ _) (continues_advance (draw_pc s src) hpass))

theorem load_continues (n : Nat) (src : RegNum) (off : BitVec 16) : Continues ok (load n dst src off s) := by
  rw [load_eq]
  exact continues_of_pos hw (continues_check (runFault_unwrittenRegister _ _)
    (continues_access (continues_advance (draw_pc s src) hpass)))

end

theorem moveConst_continues {n : Nat} {dst : RegNum} (hw : writableReg dst = true) (hpass : ok (s.pc + n)) (v : Word) :
    Continues ok (moveConst n dst v s) := by
  rw [moveConst_eq]
  exact continues_of_pos hw (continues_advance rfl hpass)

theorem loadPlatform_continues {dst : RegNum} (hw : writableReg dst = true) {v : Option Word} (hv : v.isSome = true)
    (hpass : ok (s.pc + 2)) : Continues ok (loadPlatform dst v s) := by
  obtain ⟨w, rfl⟩ := Option.isSome_iff_exists.mp hv
  exact moveConst_continues hw hpass w

section
variable (hpass : ok (s.pc + 1)) (n : Nat) (dst : RegNum) (off : BitVec 16)
include hpass

theorem storeImm_continues (imm : BitVec 32) : Continues ok (storeImm n dst off imm s) := by
  rw [storeImm_eq]
  exact continues_check (runFault_unwrittenRegister _ _)
    (continues_access (continues_advance (draw_pc s dst) hpass))

theorem storeReg_continues (src : RegNum) : Continues ok (storeReg n dst off src s) := by
  rw [storeReg_eq]
  exact continues_check (runFault_unwrittenRegister _ _)
    (continues_access (continues_advance ((draw_pc _ src).trans (draw_pc s dst)) hpass))

theorem atomicUpdate_continues (op : AtomicOp) (src : RegNum) : Continues ok (atomicUpdate n op dst off src s) := by
  rw [atomicUpdate_eq]
  exact continues_check (runFault_unwrittenRegister _ _)
    (continues_access (continues_advance ((draw_pc _ src).trans (draw_pc s dst)) hpass))

theorem atomicFetch_continues (op : AtomicOp) {src : RegNum} (hw : writableReg src = true) :
    Continues ok (atomicFetch n op dst off src s) := by
  rw [atomicFetch_eq]
  exact continues_of_pos hw (continues_check (runFault_unwrittenRegister _ _)
    (continues_access (continues_advance ((draw_pc _ src).trans (draw_pc s dst)) hpass)))

theorem compareExchange_continues (src : RegNum) : Continues ok (compareExchange n dst off src s) := by
  by_cases hread : ∀ k ∈ [dst, src, 0], canRead s k = true
  · have reads : (read3State s dst src 0).pc = s.pc := by simp only [draw_pc]
    rw [compareExchange_eq n dst off src s hread]
    refine continues_access (continues_advance ?_ hpass)
    split
    · exact reads
    · exact reads
  · push Not at hread
    obtain ⟨k, hk, hkr⟩ := hread
    obtain ⟨r, -, -, -, hfault⟩ := compareExchange_unreadable n dst off src s k hk (Bool.eq_false_iff.mpr hkr)
    rw [hfault]
    exact runFault_unwrittenRegister _ _

end

/-! ### Jumps, calls and EXIT -/

section
variable (hpass : ok (s.pc + 1)) {off : BitVec 16} (htarget : ok (s.pc + 1 + offsetSlots off)) (c : Cond) (dst : RegNum)
include hpass htarget

theorem jump64K_continues (imm : BitVec 32) : Continues ok (jump64K c dst imm off s) := by
  rw [jump64K_eq]
  exact continues_check (runFault_unwrittenRegister _ _) (continues_branch (draw_pc s dst) hpass htarget)

theorem jump64X_continues (src : RegNum) : Continues ok (jump64X c dst src off s) := by
  rw [jump64X_eq]
  exact continues_check (runFault_unwrittenRegister _ _)
    (continues_branch ((draw_pc _ src).trans (draw_pc s dst)) hpass htarget)

theorem jump32K_continues (imm : BitVec 32) : Continues ok (jump32K c dst imm off s) := by
  rw [jump32K_eq]
  exact continues_check (runFault_unwrittenRegister _ _) (continues_branch (draw_pc s dst) hpass htarget)

theorem jump32X_continues (src : RegNum) : Continues ok (jump32X c dst src off s) := by
  rw [jump32X_eq]
  exact continues_check (runFault_unwrittenRegister _ _)
    (continues_branch ((draw_pc _ src).trans (draw_pc s dst)) hpass htarget)

end

theorem callFunction_continues {space : CallSpace} {id : BitVec 32}
    (hknown : ((functionsOf s.cfg space).lookup id).isSome = true) (hpass : ok (s.pc + 1)) :
    Continues ok (callFunction space id s) := by
  rcases callFunction_cases space id s with ⟨hnone, -⟩ | ⟨f, -, ⟨r, -, -, -, e⟩ | ⟨-, e⟩⟩
  · simp [hnone] at hknown
  · rw [e]
    exact runFault_unwrittenRegister _ _
  · rw [e]
    dsimp only
    split
    · exact runFault_helperFault _ _ _
    · exact continues_advance (drawAll_pc s (argRegs f.arity)) hpass

theorem callEbpf_continues {disp : Int} (htarget : ok (s.pc + 1 + disp)) : Continues ok (callEbpf disp s) := by
  rw [callEbpf_eq]
  refine continues_check (runFault_callDepthExceeded _) (continues_check (runFault_unwrittenRegister _ _) ?_)
  rwa [Continues, enterFunction_draw_pc]

/-- EXIT ends the run where it stands, or goes to the slot that the innermost record names (R253). -/
theorem exitFunction_continues (hstay : ok s.pc) (hreturn : ∀ f ∈ s.frames, ok f.retPc) :
    Continues ok (exitFunction s) := by
  rw [exitFunction_eq]
  refine continues_check (runFault_unwrittenRegister _ _) ?_
  cases hframes : s.frames with
  | nil => rwa [← draw_pc s 0] at hstay
  | cons f rest => exact hreturn f (hframes ▸ List.mem_cons_self)

end

/-! ### What the encoding says of a displacement (R87, R88, R191, R251) -/

/-- The opcode byte of a jump of class BPF_JMP or BPF_JMP32 (R87, R88): neither CALL nor EXIT. -/
def isJumpOpcode (op : BitVec 8) : Bool :=
  (op.extractLsb' 0 3 == 5 || op.extractLsb' 0 3 == 6) && op.extractLsb' 4 4 != 8 && op.extractLsb' 4 4 != 9

/-- The loader reads the displacement of a jump from `offset`. -/
theorem jumpDisp_basicSlot {op : BitVec 8} (hop : isJumpOpcode op = true) (dst src : BitVec 4) (off : BitVec 16)
    (imm : BitVec 32) :
    jumpDisp (Fields.ofSlot ((basicSlot op dst src off imm).headD 0)) = some (offsetSlots off) := by
  rw [basicSlot, List.headD_cons, Laws.ofSlot_toSlot]
  simp only [isJumpOpcode, Bool.and_eq_true, Bool.or_eq_true, beq_iff_eq, bne_iff_ne, and_assoc] at hop
  exact if_pos hop

/-- The loader reads the displacement of a local call from the field that `LOCAL_CALL_DISP` names. -/
theorem localCallDisp_basicSlot (c : Config) (off : BitVec 16) (imm : BitVec 32) :
    localCallDisp c (Fields.ofSlot ((encode (.callLocal off imm)).headD 0)) =
      some (match c.localCallDisp with | .offset => off.toInt | .imm => imm.toInt) := by
  rw [encode, basicSlot, List.headD_cons, Laws.ofSlot_toSlot, localCallDisp, if_pos ⟨rfl, rfl⟩]
  cases c.localCallDisp <;> rfl

/-! ### Every instruction -/

/-- What the loader has checked of the instruction at the pc, in terms of the pcs it may lead to. -/
structure Checked (ok : Int → Prop) (s : State) (i : Instr) : Prop where
  wf : i.wf = true
  supported : ∃ (n : Nat) (w : Slot), s.pc = n ∧ instrFault s.cfg n w i = none
  stay : ok s.pc
  pass : ok (s.pc + i.slots)
  jump : ∀ d, jumpDisp (Fields.ofSlot ((encode i).headD 0)) = some d → ok (s.pc + 1 + d)
  call : ∀ d, localCallDisp s.cfg (Fields.ofSlot ((encode i).headD 0)) = some d → ok (s.pc + 1 + d)
  ret : ∀ f ∈ s.frames, ok f.retPc

/-- A check of the loader that finds nothing holds. -/
theorem of_check_none {p : Prop} [Decidable p] {f : Fault} (h : (if p then none else some f) = none) : p := by
  by_contra hp
  rw [if_neg hp] at h
  cases h

theorem callLocal_continues {ok : Int → Prop} {s : State} {off : BitVec 16} {imm : BitVec 32}
    (h : Checked ok s (.callLocal off imm)) : Continues ok (exec (.callLocal off imm) s) := by
  obtain ⟨n, w, -, hsupported⟩ := h.supported
  have inOrder : (s.cfg.localCallDisp == .offset || off == 0) = true := of_check_none hsupported
  have hoff : ¬ (s.cfg.localCallDisp = .imm ∧ off ≠ 0) := by
    rintro ⟨hdisp, hne⟩
    exact hne (by simpa [hdisp] using inOrder)
  rw [exec_callLocal hoff]
  exact callEbpf_continues (h.call _ (localCallDisp_basicSlot s.cfg off imm))

/-- Every instruction that the loader has checked goes to a pc that `ok` allows or meets a fault of the run: each runs one shared
operation, and those that always fault are not accepted. -/
theorem exec_continues {ok : Int → Prop} {i : Instr} {s : State} (h : Checked ok s i) : Continues ok (exec i s) := by
  have hw := h.wf
  have hpass := h.pass
  have target {op : BitVec 8} (hop : isJumpOpcode op = true) (dst src : BitVec 4) (off : BitVec 16) (imm : BitVec 32)
      (he : encode i = basicSlot op dst src off imm) : ok (s.pc + 1 + offsetSlots off) :=
    h.jump _ (he ▸ jumpDisp_basicSlot hop dst src off imm)
  obtain ⟨n, w, hpc, hsupported⟩ := h.supported
  cases i
  case add32K | sub32K | mul32K | div32K | or32K | and32K | lsh32K | rsh32K | mod32K | xor32K | arsh32K =>
    exact alu32K_continues hw hpass _ _
  case add32X | sub32X | mul32X | div32X | or32X | and32X | lsh32X | rsh32X | mod32X | xor32X | arsh32X =>
    exact alu32X_continues hw hpass _ _
  case add64K | sub64K | mul64K | div64K | or64K | and64K | lsh64K | rsh64K | mod64K | xor64K | arsh64K =>
    exact alu64K_continues hw hpass _ _
  case add64X | sub64X | mul64X | div64X | or64X | and64X | lsh64X | rsh64X | mod64X | xor64X | arsh64X =>
    exact alu64X_continues hw hpass _ _
  case neg32 => exact unary_continues hw hpass (fun v => zext64 (-lo32 v))
  case neg64 => exact unary_continues hw hpass (fun v => -v)
  case le16 | le32 | le64 | be16 | be32 | be64 => exact unary_continues hw hpass (convertOrder _ s.cfg.hostEndian _)
  case mov32K | mov64K | ldImm64 => exact moveConst_continues hw hpass _
  case mov32X => exact moveReg_continues hw hpass (fun v => zext64 (lo32 v)) _
  case mov64X => exact moveReg_continues hw hpass (fun v => v) _
  case ja => exact continues_branch rfl hpass (target (by decide) _ _ _ _ rfl)
  case jeq64K | jgt64K | jge64K | jset64K | jne64K | jsgt64K | jsge64K | jlt64K | jle64K | jslt64K | jsle64K =>
    exact jump64K_continues hpass (target (by decide) _ _ _ _ rfl) _ _ _
  case jeq64X | jgt64X | jge64X | jset64X | jne64X | jsgt64X | jsge64X | jlt64X | jle64X | jslt64X | jsle64X =>
    exact jump64X_continues hpass (target (by decide) _ _ _ _ rfl) _ _ _
  case jeq32K | jgt32K | jge32K | jset32K | jne32K | jsgt32K | jsge32K | jlt32K | jle32K | jslt32K | jsle32K =>
    exact jump32K_continues hpass (target (by decide) _ _ _ _ rfl) _ _ _
  case jeq32X | jgt32X | jge32X | jset32X | jne32X | jsgt32X | jsge32X | jlt32X | jle32X | jslt32X | jsle32X =>
    exact jump32X_continues hpass (target (by decide) _ _ _ _ rfl) _ _ _
  case callHelper | callRuntime => exact callFunction_continues (of_check_none hsupported) hpass
  case callLocal => exact callLocal_continues h
  case exit => exact exitFunction_continues h.stay h.ret
  case ldxB | ldxH | ldxW | ldxDW => exact load_continues hw hpass _ _ _
  case stB | stH | stW | stDW => exact storeImm_continues hpass _ _ _ _
  case stxB | stxH | stxW | stxDW => exact storeReg_continues hpass _ _ _ _
  case atomicAdd32 | atomicOr32 | atomicAnd32 | atomicXor32 | atomicAdd64 | atomicOr64 | atomicAnd64 | atomicXor64 =>
    exact atomicUpdate_continues hpass _ _ _ _ _
  case atomicFetchAdd32 | atomicFetchOr32 | atomicFetchAnd32 | atomicFetchXor32 | atomicXchg32 | atomicFetchAdd64
      | atomicFetchOr64 | atomicFetchAnd64 | atomicFetchXor64 | atomicXchg64 =>
    exact atomicFetch_continues hpass _ _ _ _ hw
  case atomicCmpxchg32 | atomicCmpxchg64 => exact compareExchange_continues hpass _ _ _ _
  case ldMapFd | ldVarAddr | ldMapIdx => exact loadPlatform_continues hw (of_check_none hsupported) hpass
  case ldMapFdValue | ldMapIdxValue =>
    exact loadPlatform_continues hw (Option.isSome_map.trans (of_check_none hsupported)) hpass
  case ldCodeAddr => exact loadPlatform_continues hw (hpc ▸ of_check_none hsupported) hpass
  case ldAbsW | ldAbsH | ldAbsB | ldAbsDW | ldIndW | ldIndH | ldIndB | ldIndDW | pseudoSlot =>
    exact absurd hsupported (Option.some_ne_none _)

/-! ## A step from a first slot of an accepted program (R374) -/

theorem Continues.next {ok : Int → Prop} {o : Host.Outcome State Fault Refusal} (h : Continues ok o) {t : State}
    (ho : o = .next t) : ok t.pc := by
  rwa [ho] at h

theorem Continues.fault {ok : Int → Prop} {o : Host.Outcome State Fault Refusal} (h : Continues ok o) {f : Fault}
    (ho : o = .fault f) : RunFault f := by
  rwa [ho] at h

/-- A step from a first slot runs the instruction that begins there, and where every pc that the loader has checked is one that
`ok` allows, it goes to such a pc or meets a fault of the run. -/
theorem step_continues {c : Config} {is : List (Nat × Instr)} {s : State} {ok : Int → Prop} (hload : loaderFault c = none)
    (hscan : scan 0 c.program = .ok is) (hcfg : s.cfg = c) (hrun : s.status = .running) (hpc : IsStart is s.pc)
    (hok : ∀ p, IsStartOrEnd c is p → ok p) (hret : ∀ f ∈ s.frames, ok f.retPc) :
    ∃ i, step s = exec i (envTurn s) ∧ IsStartOrEnd c is (s.pc + i.slots) ∧ Continues ok (step s) := by
  subst hcfg
  obtain ⟨⟨k, i⟩, hmem, hk⟩ := hpc
  have hk : s.pc = k := hk
  obtain ⟨w, hbegins⟩ := beginsAt_of_scan hscan hmem
  obtain ⟨hsupported, hjump, hcall⟩ := checks_of_accepted hload hscan hmem hbegins.slot
  have hpast := hbegins.past
  have hstep : step s = exec i (envTurn s) :=
    step_of_decodeSlots_ok hrun (hk ▸ hbegins.slot) (hk ▸ hbegins.decodes)
  rw [← hk] at hjump hcall hpast
  refine ⟨i, hstep, hpast, hstep ▸ exec_continues ⟨hbegins.wf, ⟨k, w, ?_, ?_⟩, ?_, ?_, ?_, ?_, ?_⟩⟩
  all_goals simp only [envTurn_pc, envTurn_cfg, envTurn_frames, hbegins.first]
  · exact hk
  · exact hsupported
  · exact hok _ (.inl ⟨_, hmem, hk⟩)
  · exact hok _ hpast
  · exact fun d hd => hok _ (.inl (hjump d hd))
  · exact fun d hd => hok _ (.inl (hcall d hd))
  · exact hret

/-- Settles O51: a fault of such a step is a fault of the run, wherever it may lead. -/
theorem loadedProgramNeverIllegal : Obligations.LoadedProgramNeverIllegal := by
  intro c is s f hload hscan hcfg hrun hpc hfault
  obtain ⟨-, -, -, hcontinues⟩ := step_continues (ok := fun _ => True) hload hscan hcfg hrun hpc
    (fun _ _ => trivial) fun _ _ => trivial
  exact hcontinues.fault hfault

/-- The records after an instruction are those before it, or one more that a local call pushed, of one slot and with the slot after
it to return to (R32, R251, R253). -/
theorem exec_frames {i : Instr} {s t : State} (h : exec i s = .next t) :
    ∀ f ∈ t.frames, f ∈ s.frames ∨ f.retPc = s.pc + i.slots := by
  by_cases hcall : ∃ off imm, i = .callLocal off imm
  · obtain ⟨off, imm, rfl⟩ := hcall
    obtain ⟨-, disp, rfl⟩ := callLocal_next h
    rw [enterFunction_frames, frameOf_draw, draw_frames]
    intro f hf
    rcases List.mem_cons.mp hf with rfl | hf
    · exact .inr rfl
    · exact .inl hf
  by_cases hexit : i = .exit
  · subst hexit
    obtain ⟨-, rfl⟩ | ⟨g, rest, hframes, rfl⟩ := exit_next h
    · rw [← draw_frames s 0]
      exact fun f hf => .inl hf
    · rw [leaveFunction_frames, hframes]
      exact fun f hf => .inl (List.mem_cons_of_mem g hf)
  · have same := exec_effect h (fun off imm e => hcall ⟨off, imm, e⟩) hexit |>.sameRest.frames
    exact fun f hf => .inl (same ▸ hf)

/-- Settles O52: where a step goes the loader has checked, and a record that it pushes returns past the call. -/
theorem loadedProgramStaysOnStarts : Obligations.LoadedProgramStaysOnStarts := by
  intro c is s t hload hscan hcfg hrun hpc hret hnext
  obtain ⟨i, hstep, hpast, hcontinues⟩ := step_continues (ok := IsStartOrEnd c is) hload hscan hcfg hrun hpc
    (fun _ h => h) hret
  refine ⟨hcontinues.next hnext, fun f hf => ?_⟩
  rcases exec_frames (hstep ▸ hnext) f hf with hold | hpushed
  · exact hret f (envTurn_frames s ▸ hold)
  · rw [envTurn_pc] at hpushed
    exact hpushed ▸ hpast

end Sys2Proof.Machine
